-- ==== Sys2Proof/Word.lean ====
section
/-! DEFINITION. The words of the block (R11, R12), the four-component vector (R14) and the shape of a
sparse bank of like things. Nothing here computes: operations stand in `Machine/`. -/

namespace Sys2Proof

/-- A command word, a method data word, a binary32 pattern, a byte address (R11, R80). -/
abbrev Word := BitVec 32

/-- The smallest addressable unit of physical memory (R80). -/
abbrev Byte := BitVec 8

/-- A bank of like things by index: the entries that differ from the bank's default value, indices
strictly rising. `Machine/Bank.lean` reads and writes it and says when it is in its canonical form. -/
abbrev Bank (α : Type) := List (Nat × α)

/-- A 4-component vector (R14): `(x, y, z, w)` of the transform, `(r, g, b, a)` of the combiners. Each
component is a binary32 pattern. -/
structure Vec4 where
  x : Word
  y : Word
  z : Word
  w : Word
deriving DecidableEq, Repr

/-- The vector `(0.0, 0.0, 0.0, 0.0)`, the reset value of every vector register (R42, R44, R45). -/
def Vec4.zero : Vec4 := ⟨0, 0, 0, 0⟩

end Sys2Proof
end

