-- ==== Sys2Proof/Machine/Bank.lean ====
section
/-! DEFINITION. Reading and writing a sparse bank, and its canonical form. `d` is the bank's default value: what an unlisted index
holds. -/

namespace Sys2Proof.Machine
open Sys2Proof

/-- The value at index `i`. -/
def bankGet {α : Type} (d : α) (b : Bank α) (i : Nat) : α :=
  match b with
  | [] => d
  | (k, v) :: rest => if i = k then v else bankGet d rest i

/-- The bank without the entries of index `i`. -/
def bankErase {α : Type} (b : Bank α) (i : Nat) : Bank α :=
  match b with
  | [] => []
  | (k, v) :: rest => if i = k then bankErase rest i else (k, v) :: bankErase rest i

/-- The bank with an entry put before the first larger index. -/
def bankInsert {α : Type} (b : Bank α) (i : Nat) (v : α) : Bank α :=
  match b with
  | [] => [(i, v)]
  | (k, x) :: rest => if i < k then (i, v) :: (k, x) :: rest else (k, x) :: bankInsert rest i v

/-- The bank with `v` at index `i`; writing the default removes the entry. -/
def bankSet {α : Type} [DecidableEq α] (d : α) (b : Bank α) (i : Nat) (v : α) : Bank α :=
  if v = d then bankErase b i else bankInsert (bankErase b i) i v

/-- The entries stand in strictly rising order, all at or above `lo`, and none holds the default. -/
def bankWfFrom {α : Type} [DecidableEq α] (d : α) (lo : Nat) : Bank α → Bool
  | [] => true
  | (k, v) :: rest => decide (lo ≤ k) && decide (v ≠ d) && bankWfFrom d (k + 1) rest

/-- The canonical form: equal contents are equal data. -/
def bankWf {α : Type} [DecidableEq α] (d : α) (b : Bank α) : Bool := bankWfFrom d 0 b

/-- Every listed index is below `n`. -/
def bankBelow {α : Type} (n : Nat) (b : Bank α) : Bool := b.all fun e => decide (e.1 < n)

end Sys2Proof.Machine
end

