-- ==== Sys2Proof/Config.lean ====
section
/-! DEFINITION. What an implementation fixes (R10), and the free values: the constants with no body that stand for a
value the spec leaves open. The named parameters of R10 and of 93_implementation_defined.md are plain data of the machine,
`Machine.Params` and `Machine.State.objects`, so that a claim about every state is a claim about every choice of them; here stand the
shapes of its tables. -/

namespace Sys2Proof

/-! ### The shapes of the parameter tables (R10) -/

/-- The kinds of a command word (R110); INVALID is what no row matches. -/
inductive CommandKind where
  | jump
  | call
  | increasing
  | nonincreasing
  | longNonincreasing
  | ret
  | oldJump
  | sliConditional
deriving DecidableEq, Repr

/-- One row of `CMD_DECODE` (R110): `w & mask = pattern` gives the kind. -/
structure CommandRow where
  mask : Word
  pattern : Word
  kind : CommandKind
deriving DecidableEq, Repr

/-- One row of `METHOD_MAP` (R120): the `slots` method addresses from `base` on are the methods that the table of R121 has from
`home` on. -/
structure MethodRange where
  base : Nat
  slots : Nat
  home : Nat
deriving DecidableEq, Repr

/-- Where a vertex-program field stands: in word `w0` to `w3`, from bit `lo` up (R130). -/
structure VpPlace where
  word : BitVec 2
  lo : Nat
deriving DecidableEq, Repr

/-- `VP_LAYOUT` (R130): the place of each field; `C_R` lies in two places, its high two bits and its low two. -/
structure VpLayout where
  sop : VpPlace
  vop : VpPlace
  cidx : VpPlace
  vidx : VpPlace
  aNeg : VpPlace
  aSwz : VpPlace
  aReg : VpPlace
  aMux : VpPlace
  bNeg : VpPlace
  bSwz : VpPlace
  bReg : VpPlace
  bMux : VpPlace
  cNeg : VpPlace
  cSwz : VpPlace
  cRegHi : VpPlace
  cRegLo : VpPlace
  cMux : VpPlace
  vtMask : VpPlace
  rDst : VpPlace
  stMask : VpPlace
  oMask : VpPlace
  orb : VpPlace
  oAddr : VpPlace
  oMux : VpPlace
  a0x : VpPlace
  final : VpPlace
deriving DecidableEq, Repr

/-- The values of `DXT35_COLOR_MODE`, the colour mode of a DXT3 or DXT5 block (R447): FOUR, the default; THREE; or the mode that R446 gives
a DXT1 block by the order of its two reference colours. The spec names the first alone: assumption log 38. -/
inductive DxtColorMode where
  | four
  | three
  | byOrder
deriving DecidableEq, Repr

/-- The three decode tables that are parameters (R10): `CMD_DECODE`, `METHOD_MAP`, `VP_LAYOUT`. -/
structure Tables where
  cmdDecode : List CommandRow
  methodMap : List MethodRange
  vpLayout : VpLayout
deriving DecidableEq, Repr

/-! ### The shapes of ENUMS, MMIO_MAP, the interrupt bits and the numerics parameters (93_implementation_defined.md, part 1) -/

/-- The comparison functions (R152), in the order of the enumeration. -/
inductive CompareFn where
  | never
  | less
  | equal
  | lequal
  | greater
  | notequal
  | gequal
  | always
deriving DecidableEq, Repr

/-- The stencil operations (R152). -/
inductive StencilFn where
  | zero
  | invert
  | keep
  | replace
  | incr
  | decr
  | incrWrap
  | decrWrap
deriving DecidableEq, Repr

/-- The blend factors (R152). -/
inductive FactorFn where
  | zero
  | one
  | srcColor
  | oneMinusSrcColor
  | srcAlpha
  | oneMinusSrcAlpha
  | dstAlpha
  | oneMinusDstAlpha
  | dstColor
  | oneMinusDstColor
  | srcAlphaSaturate
  | constantColor
  | oneMinusConstantColor
  | constantAlpha
  | oneMinusConstantAlpha
deriving DecidableEq, Repr

/-- The blend equations (R152). -/
inductive EquationFn where
  | add
  | min
  | max
  | subtract
  | reverseSubtract
deriving DecidableEq, Repr

/-- The logic operations (R152), in the order of the enumeration. -/
inductive LogicFn where
  | clear
  | and
  | andReverse
  | copy
  | andInverted
  | noop
  | xor
  | or
  | nor
  | equiv
  | invert
  | orReverse
  | copyInverted
  | orInverted
  | nand
  | set
deriving DecidableEq, Repr

/-- `ENUMS` (R152): the word of each member of each enumeration. A word that a table lists twice names the first member; a word that it
does not list is outside the enumeration (R598). -/
structure Enums where
  compare : List (Word × CompareFn)
  stencil : List (Word × StencilFn)
  factor : List (Word × FactorFn)
  equation : List (Word × EquationFn)
  logic : List (Word × LogicFn)
deriving DecidableEq, Repr

/-- `MMIO_MAP` (R610): the offset of each named register in the aperture, and of `DMA_PUT` and `DMA_GET` in the register window of their
channel (R87). -/
structure MmioMap where
  pmcIntr : Word
  pmcEnable : Word
  pgraphIntr : Word
  notifySrc : Word
  notifyData : Word
  pgraphEnable : Word
  pcrtcIntr : Word
  pcrtcEnable : Word
  pcrtcStart : Word
  dmaPut : BitVec 16
  dmaGet : BitVec 16
deriving DecidableEq, Repr

/-- The interrupt bits: `PMC_PGRAPH_BIT` and `PMC_PCRTC_BIT`, the numbers of two bits of `PMC.intr` (R55, R604), and `PGRAPH_NOTIFY_BIT`,
the bits of `PGRAPH.intr` that NO_OPERATION sets (R220, R607). -/
structure IrqBits where
  pgraph : BitVec 5
  pcrtc : BitVec 5
  notify : Word
deriving DecidableEq, Repr

/-- The numerics parameters: `RCC_FN` (R333), `EXP2_TRUNC` (R335), `LOG2_FN` (R336) and `POW` (R337). Each lists the operands at which it
differs from its default, with its value there, so that every function of binary32 words is a choice of the list. -/
structure Numerics where
  rcc : List (Word × Word)
  exp2 : List (Word × Word)
  log2 : List (Word × Word)
  pow : List ((Word × Word) × Word)
deriving DecidableEq, Repr

end Sys2Proof

namespace Sys2Proof.Config

/-- The default of `KELVIN_CLASS`, the object class whose methods act (R10, D9): assumption log 5. -/
def kelvinClass : Word := 0x97

/-- Free value: sign and payload (23 bits, sign first) of a NaN that a binary32 operation makes, by operation and
operands. R13 and D2 give the format and not the payload: assumption log 10. -/
opaque nanPayload : (operation : Nat) → (left right : Word) → BitVec 23

/-- Free value: `AA_YSCALE` of an antialiasing mode that its table does not list, as R37 lists 0, 1 and 2 only: assumption log 11. -/
opaque aaYScaleOther : BitVec 4 → Nat

/-- Free value: the dilation of a coordinate for a width above 15, for which R90 gives no formula (`second` selects
`dilate1`): assumption log 12. -/
opaque dilateBeyond : (second : Bool) → (x b : Nat) → Nat

/-- Free value: the fourth component of a CMP attribute of size 4 or more, by its packed word; R252 gives three
components: assumption log 13. -/
opaque cmpFourth : Word → Word

/-- Free value: a word of the inline buffer past index 63, which R51 does not hold and which an array layout of sizes
above 4 asks for: assumption log 14. -/
opaque ibufBeyond : (index : Nat) → Word

end Sys2Proof.Config
end

