-- ==== Sys2Proof/Syntax.lean ====
section
/-! DEFINITION. The three instruction sets of the block (R3) as one type: command words (R110), method writes (R121) and
vertex-program instructions (R130). One constructor for each row of spec/opcode_table.json; its operands are the fields the row's
encoding carries. A method write carries its data word `d` and, where one row stands for several addresses, the index the address
holds. A vertex-program instruction is seen from its vector slot (`vpMul sop f`, `sop` being the scalar opcode beside it) or from
its scalar slot (`vpSRcp vop f`): the two views of one instruction word. -/

namespace Sys2Proof

/-- One source operand descriptor of a vertex-program instruction (R130): negate flag, swizzle with x in bits 7:6 and w in
bits 1:0, temporary index, kind (R132). -/
structure VpOperand where
  neg : BitVec 1
  swz : BitVec 8
  reg : BitVec 4
  mux : BitVec 2
deriving DecidableEq, Repr

/-- Every field of a vertex-program instruction (R130) but its two opcodes. -/
structure VpFields where
  cidx : BitVec 8
  vidx : BitVec 4
  a : VpOperand
  b : VpOperand
  c : VpOperand
  vtMask : BitVec 4
  rDst : BitVec 4
  stMask : BitVec 4
  oMask : BitVec 4
  orb : BitVec 1
  oAddr : BitVec 8
  oMux : BitVec 1
  a0x : BitVec 1
  final : BitVec 1
deriving DecidableEq, Repr

/-- What the word at hand is, which the puller knows from the burst in progress (R160, R166, R170) and the vertex-program unit from
where it reads: a command word, the handle word of a bind-object command, a data word for the method of the given word index, or the
four words of a vertex-program instruction seen from one of its two slots (R130, R137, R138). -/
inductive Slot where
  | command
  | bind
  | method (mthd : BitVec 11)
  | vector
  | scalar
deriving DecidableEq, Repr

/-- The instructions: one constructor for each row of the opcode table. -/
inductive Instr where
  -- command words (R110)
  | jump (target : BitVec 30)
  | call (target : BitVec 30)
  | increasing (mthd : BitVec 11) (subc : BitVec 3) (count : BitVec 11)
  | nonincreasing (mthd : BitVec 11) (subc : BitVec 3) (count : BitVec 11)
  | longNonincreasing (mthd : BitVec 11) (subc : BitVec 3)
  | ret
  | oldJump (target : BitVec 27)
  | sliConditional (ignored : BitVec 14)
  | invalid (word : Word)
  -- the bind-object data word (R112)
  | bindObject (handle : Word)
  -- method writes (R121)
  | noOperation (d : Word)
  | waitForVblank (d : Word)
  | surfaceClipHorizontal (d : Word)
  | surfaceClipVertical (d : Word)
  | surfaceFormat (d : Word)
  | surfacePitch (d : Word)
  | surfaceColorOffset (d : Word)
  | surfaceZetaOffset (d : Word)
  | combinerAlphaIcw (stage : BitVec 3) (d : Word)
  | combinerSpecularFogCw0 (d : Word)
  | combinerSpecularFogCw1 (d : Word)
  | alphaTestEnable (d : Word)
  | blendEnable (d : Word)
  | depthTestEnable (d : Word)
  | stencilTestEnable (d : Word)
  | alphaFunc (d : Word)
  | alphaRef (d : Word)
  | blendFuncSfactor (d : Word)
  | blendFuncDfactor (d : Word)
  | blendColor (d : Word)
  | blendEquation (d : Word)
  | depthFunc (d : Word)
  | colorMask (d : Word)
  | depthMask (d : Word)
  | stencilMask (d : Word)
  | stencilFunc (d : Word)
  | stencilFuncRef (d : Word)
  | stencilFuncMask (d : Word)
  | stencilOpFail (d : Word)
  | stencilOpZfail (d : Word)
  | stencilOpZpass (d : Word)
  | projectionMatrix (k : BitVec 4) (d : Word)
  | modelViewMatrix (k : BitVec 4) (d : Word)
  | inverseModelViewMatrix (k : BitVec 4) (d : Word)
  | compositeMatrix (k : BitVec 4) (d : Word)
  | viewportOffset (k : BitVec 2) (d : Word)
  | combinerFactor0 (stage : BitVec 3) (d : Word)
  | combinerFactor1 (stage : BitVec 3) (d : Word)
  | combinerAlphaOcw (stage : BitVec 3) (d : Word)
  | combinerColorIcw (stage : BitVec 3) (d : Word)
  | viewportScale (k : BitVec 2) (d : Word)
  | transformProgram (j : BitVec 5) (d : Word)
  | transformConstant (j : BitVec 5) (d : Word)
  | vertex3f0 (d : Word)
  | vertex3f1 (d : Word)
  | vertex3f2 (d : Word)
  | vertex4f0 (d : Word)
  | vertex4f1 (d : Word)
  | vertex4f2 (d : Word)
  | vertex4f3 (d : Word)
  | vertexDataArrayOffset0 (d : Word)
  | vertexDataArrayOffset1 (d : Word)
  | vertexDataArrayOffset2 (d : Word)
  | vertexDataArrayOffset3 (d : Word)
  | vertexDataArrayOffset4 (d : Word)
  | vertexDataArrayOffset5 (d : Word)
  | vertexDataArrayOffset6 (d : Word)
  | vertexDataArrayOffset7 (d : Word)
  | vertexDataArrayOffset8 (d : Word)
  | vertexDataArrayOffset9 (d : Word)
  | vertexDataArrayOffset10 (d : Word)
  | vertexDataArrayOffset11 (d : Word)
  | vertexDataArrayOffset12 (d : Word)
  | vertexDataArrayOffset13 (d : Word)
  | vertexDataArrayOffset14 (d : Word)
  | vertexDataArrayOffset15 (d : Word)
  | vertexDataArrayFormat0 (d : Word)
  | vertexDataArrayFormat1 (d : Word)
  | vertexDataArrayFormat2 (d : Word)
  | vertexDataArrayFormat3 (d : Word)
  | vertexDataArrayFormat4 (d : Word)
  | vertexDataArrayFormat5 (d : Word)
  | vertexDataArrayFormat6 (d : Word)
  | vertexDataArrayFormat7 (d : Word)
  | vertexDataArrayFormat8 (d : Word)
  | vertexDataArrayFormat9 (d : Word)
  | vertexDataArrayFormat10 (d : Word)
  | vertexDataArrayFormat11 (d : Word)
  | vertexDataArrayFormat12 (d : Word)
  | vertexDataArrayFormat13 (d : Word)
  | vertexDataArrayFormat14 (d : Word)
  | vertexDataArrayFormat15 (d : Word)
  | logicOpEnable (d : Word)
  | logicOp (d : Word)
  | beginEnd (d : Word)
  | arrayElement16 (d : Word)
  | arrayElement32 (d : Word)
  | drawArrays (d : Word)
  | inlineArray (d : Word)
  | vertexData2fM (slot : BitVec 4) (c : BitVec 1) (d : Word)
  | vertexData2s (slot : BitVec 4) (d : Word)
  | vertexData4ub (slot : BitVec 4) (d : Word)
  | vertexData4sM (slot : BitVec 4) (c : BitVec 1) (d : Word)
  | vertexData4fM (slot : BitVec 4) (c : BitVec 2) (d : Word)
  | textureOffset0 (d : Word)
  | textureOffset1 (d : Word)
  | textureOffset2 (d : Word)
  | textureOffset3 (d : Word)
  | textureFormat0 (d : Word)
  | textureFormat1 (d : Word)
  | textureFormat2 (d : Word)
  | textureFormat3 (d : Word)
  | textureAddress0 (d : Word)
  | textureAddress1 (d : Word)
  | textureAddress2 (d : Word)
  | textureAddress3 (d : Word)
  | textureControl0N0 (d : Word)
  | textureControl0N1 (d : Word)
  | textureControl0N2 (d : Word)
  | textureControl0N3 (d : Word)
  | textureControl1N0 (d : Word)
  | textureControl1N1 (d : Word)
  | textureControl1N2 (d : Word)
  | textureControl1N3 (d : Word)
  | textureImageRect0 (d : Word)
  | textureImageRect1 (d : Word)
  | textureImageRect2 (d : Word)
  | textureImageRect3 (d : Word)
  | zstencilClearValue (d : Word)
  | colorClearValue (d : Word)
  | clearSurface (d : Word)
  | clearRectHorizontal (d : Word)
  | clearRectVertical (d : Word)
  | specularFogFactor (k : BitVec 1) (d : Word)
  | combinerColorOcw (stage : BitVec 3) (d : Word)
  | combinerControl (d : Word)
  | transformExecutionMode (d : Word)
  | transformProgramLoad (d : Word)
  | transformProgramStart (d : Word)
  | transformConstantLoad (d : Word)
  -- vertex-program instructions, vector slot (R137)
  | vpNop (sop : BitVec 4) (f : VpFields)
  | vpMov (sop : BitVec 4) (f : VpFields)
  | vpMul (sop : BitVec 4) (f : VpFields)
  | vpAdd (sop : BitVec 4) (f : VpFields)
  | vpMad (sop : BitVec 4) (f : VpFields)
  | vpDp3 (sop : BitVec 4) (f : VpFields)
  | vpDph (sop : BitVec 4) (f : VpFields)
  | vpDp4 (sop : BitVec 4) (f : VpFields)
  | vpDst (sop : BitVec 4) (f : VpFields)
  | vpMin (sop : BitVec 4) (f : VpFields)
  | vpMax (sop : BitVec 4) (f : VpFields)
  | vpSlt (sop : BitVec 4) (f : VpFields)
  | vpSge (sop : BitVec 4) (f : VpFields)
  | vpArl (sop : BitVec 4) (f : VpFields)
  -- vertex-program instructions, scalar slot (R138)
  | vpSNop (vop : BitVec 4) (f : VpFields)
  | vpSImv (vop : BitVec 4) (f : VpFields)
  | vpSRcp (vop : BitVec 4) (f : VpFields)
  | vpSRcc (vop : BitVec 4) (f : VpFields)
  | vpSRsq (vop : BitVec 4) (f : VpFields)
  | vpSExp (vop : BitVec 4) (f : VpFields)
  | vpSLog (vop : BitVec 4) (f : VpFields)
  | vpSLit (vop : BitVec 4) (f : VpFields)
deriving DecidableEq, Repr

end Sys2Proof
end

