-- ==== Sys2Proof/Decode.lean ====
section
/-! DEFINITION. The decoder and, after it, the encoder, both written from the tables of 30_encoding.md: command words (R110,
R111), the method map (R121) and the vertex-program layout (R130). The three tables are parameters (R10): a decoder `…By` takes them as
arguments, and the decoder without them reads the default tables, which the encoder writes. -/

namespace Sys2Proof

/-- Bits `lo + len - 1` down to `lo` of a word (R12). -/
def field (w : Word) (lo len : Nat) : BitVec len := w.extractLsb' lo len

/-- Why a group of words is no instruction in its slot: no row of the method map holds the address (R122: the write is stored
only), the opcode is reserved (R140), or the slot takes another number of words. -/
inductive DecodeError where
  | unassignedMethod (mthd : BitVec 11)
  | reservedVop (vop : BitVec 4)
  | reservedSop (sop : BitVec 4)
  | wrongLength (bytes : Nat)
deriving DecidableEq, Repr

/-- The command word of a kind with its fields (R110, R111). -/
def commandOf (k : CommandKind) (w : Word) : Instr :=
  match k with
  | .jump => .jump (field w 2 30)
  | .call => .call (field w 2 30)
  | .increasing => .increasing (field w 2 11) (field w 13 3) (field w 18 11)
  | .nonincreasing => .nonincreasing (field w 2 11) (field w 13 3) (field w 18 11)
  | .longNonincreasing => .longNonincreasing (field w 2 11) (field w 13 3)
  | .ret => .ret
  | .oldJump => .oldJump (field w 2 27)
  | .sliConditional => .sliConditional (field w 2 14)

/-- The default of `CMD_DECODE` (R110), in the table's order. -/
def cmdDecode : List CommandRow :=
  [⟨0x00000003, 0x00000001, .jump⟩,
   ⟨0x00000003, 0x00000002, .call⟩,
   ⟨0xE0030003, 0x00000000, .increasing⟩,
   ⟨0xE0030003, 0x40000000, .nonincreasing⟩,
   ⟨0xFFFF0003, 0x00030000, .longNonincreasing⟩,
   ⟨0xFFFFFFFF, 0x00020000, .ret⟩,
   ⟨0xE0000003, 0x20000000, .oldJump⟩,
   ⟨0xFFFF0003, 0x00010000, .sliConditional⟩]

/-- A command word by the rows of a table: the first that matches gives its kind; a word that matches none is INVALID (R110). -/
def decodeCommandBy (rows : List CommandRow) (w : Word) : Instr :=
  match rows with
  | [] => .invalid w
  | r :: rest => if w &&& r.mask = r.pattern then commandOf r.kind w else decodeCommandBy rest w

/-- A command word by the default table. -/
def decodeCommand (w : Word) : Instr := decodeCommandBy cmdDecode w

/-- One row of the method map (R121): its first address, how many word slots it spans, and the instruction that the write of `d` to
its slot `k` is. -/
structure MethodRow where
  base : Nat
  slots : Nat
  make : (k : Nat) → (d : Word) → Instr

/-- The row holds the method byte address `a`. -/
def MethodRow.holds (r : MethodRow) (a : Nat) : Bool := r.base ≤ a && a < r.base + 4 * r.slots

/-- The methods by their addresses (R121), in the order of the opcode table. -/
def methodMap : List MethodRow :=
  [⟨0x0100, 1, fun _ d => .noOperation d⟩,
   ⟨0x0130, 1, fun _ d => .waitForVblank d⟩,
   ⟨0x0200, 1, fun _ d => .surfaceClipHorizontal d⟩,
   ⟨0x0204, 1, fun _ d => .surfaceClipVertical d⟩,
   ⟨0x0208, 1, fun _ d => .surfaceFormat d⟩,
   ⟨0x020C, 1, fun _ d => .surfacePitch d⟩,
   ⟨0x0210, 1, fun _ d => .surfaceColorOffset d⟩,
   ⟨0x0214, 1, fun _ d => .surfaceZetaOffset d⟩,
   ⟨0x0260, 8, fun k d => .combinerAlphaIcw (BitVec.ofNat 3 k) d⟩,
   ⟨0x0288, 1, fun _ d => .combinerSpecularFogCw0 d⟩,
   ⟨0x028C, 1, fun _ d => .combinerSpecularFogCw1 d⟩,
   ⟨0x0300, 1, fun _ d => .alphaTestEnable d⟩,
   ⟨0x0304, 1, fun _ d => .blendEnable d⟩,
   ⟨0x030C, 1, fun _ d => .depthTestEnable d⟩,
   ⟨0x032C, 1, fun _ d => .stencilTestEnable d⟩,
   ⟨0x033C, 1, fun _ d => .alphaFunc d⟩] ++
  [⟨0x0340, 1, fun _ d => .alphaRef d⟩,
   ⟨0x0344, 1, fun _ d => .blendFuncSfactor d⟩,
   ⟨0x0348, 1, fun _ d => .blendFuncDfactor d⟩,
   ⟨0x034C, 1, fun _ d => .blendColor d⟩,
   ⟨0x0350, 1, fun _ d => .blendEquation d⟩,
   ⟨0x0354, 1, fun _ d => .depthFunc d⟩,
   ⟨0x0358, 1, fun _ d => .colorMask d⟩,
   ⟨0x035C, 1, fun _ d => .depthMask d⟩,
   ⟨0x0360, 1, fun _ d => .stencilMask d⟩,
   ⟨0x0364, 1, fun _ d => .stencilFunc d⟩,
   ⟨0x0368, 1, fun _ d => .stencilFuncRef d⟩,
   ⟨0x036C, 1, fun _ d => .stencilFuncMask d⟩,
   ⟨0x0370, 1, fun _ d => .stencilOpFail d⟩,
   ⟨0x0374, 1, fun _ d => .stencilOpZfail d⟩,
   ⟨0x0378, 1, fun _ d => .stencilOpZpass d⟩,
   ⟨0x0440, 16, fun k d => .projectionMatrix (BitVec.ofNat 4 k) d⟩] ++
  [⟨0x0480, 16, fun k d => .modelViewMatrix (BitVec.ofNat 4 k) d⟩,
   ⟨0x0580, 16, fun k d => .inverseModelViewMatrix (BitVec.ofNat 4 k) d⟩,
   ⟨0x0680, 16, fun k d => .compositeMatrix (BitVec.ofNat 4 k) d⟩,
   ⟨0x0A20, 4, fun k d => .viewportOffset (BitVec.ofNat 2 k) d⟩,
   ⟨0x0A60, 8, fun k d => .combinerFactor0 (BitVec.ofNat 3 k) d⟩,
   ⟨0x0A80, 8, fun k d => .combinerFactor1 (BitVec.ofNat 3 k) d⟩,
   ⟨0x0AA0, 8, fun k d => .combinerAlphaOcw (BitVec.ofNat 3 k) d⟩,
   ⟨0x0AC0, 8, fun k d => .combinerColorIcw (BitVec.ofNat 3 k) d⟩,
   ⟨0x0AF0, 4, fun k d => .viewportScale (BitVec.ofNat 2 k) d⟩,
   ⟨0x0B00, 32, fun k d => .transformProgram (BitVec.ofNat 5 k) d⟩,
   ⟨0x0B80, 32, fun k d => .transformConstant (BitVec.ofNat 5 k) d⟩,
   ⟨0x1500, 1, fun _ d => .vertex3f0 d⟩,
   ⟨0x1504, 1, fun _ d => .vertex3f1 d⟩,
   ⟨0x1508, 1, fun _ d => .vertex3f2 d⟩,
   ⟨0x1518, 1, fun _ d => .vertex4f0 d⟩,
   ⟨0x151C, 1, fun _ d => .vertex4f1 d⟩] ++
  [⟨0x1520, 1, fun _ d => .vertex4f2 d⟩,
   ⟨0x1524, 1, fun _ d => .vertex4f3 d⟩,
   ⟨0x1720, 1, fun _ d => .vertexDataArrayOffset0 d⟩,
   ⟨0x1724, 1, fun _ d => .vertexDataArrayOffset1 d⟩,
   ⟨0x1728, 1, fun _ d => .vertexDataArrayOffset2 d⟩,
   ⟨0x172C, 1, fun _ d => .vertexDataArrayOffset3 d⟩,
   ⟨0x1730, 1, fun _ d => .vertexDataArrayOffset4 d⟩,
   ⟨0x1734, 1, fun _ d => .vertexDataArrayOffset5 d⟩,
   ⟨0x1738, 1, fun _ d => .vertexDataArrayOffset6 d⟩,
   ⟨0x173C, 1, fun _ d => .vertexDataArrayOffset7 d⟩,
   ⟨0x1740, 1, fun _ d => .vertexDataArrayOffset8 d⟩,
   ⟨0x1744, 1, fun _ d => .vertexDataArrayOffset9 d⟩,
   ⟨0x1748, 1, fun _ d => .vertexDataArrayOffset10 d⟩,
   ⟨0x174C, 1, fun _ d => .vertexDataArrayOffset11 d⟩,
   ⟨0x1750, 1, fun _ d => .vertexDataArrayOffset12 d⟩,
   ⟨0x1754, 1, fun _ d => .vertexDataArrayOffset13 d⟩] ++
  [⟨0x1758, 1, fun _ d => .vertexDataArrayOffset14 d⟩,
   ⟨0x175C, 1, fun _ d => .vertexDataArrayOffset15 d⟩,
   ⟨0x1760, 1, fun _ d => .vertexDataArrayFormat0 d⟩,
   ⟨0x1764, 1, fun _ d => .vertexDataArrayFormat1 d⟩,
   ⟨0x1768, 1, fun _ d => .vertexDataArrayFormat2 d⟩,
   ⟨0x176C, 1, fun _ d => .vertexDataArrayFormat3 d⟩,
   ⟨0x1770, 1, fun _ d => .vertexDataArrayFormat4 d⟩,
   ⟨0x1774, 1, fun _ d => .vertexDataArrayFormat5 d⟩,
   ⟨0x1778, 1, fun _ d => .vertexDataArrayFormat6 d⟩,
   ⟨0x177C, 1, fun _ d => .vertexDataArrayFormat7 d⟩,
   ⟨0x1780, 1, fun _ d => .vertexDataArrayFormat8 d⟩,
   ⟨0x1784, 1, fun _ d => .vertexDataArrayFormat9 d⟩,
   ⟨0x1788, 1, fun _ d => .vertexDataArrayFormat10 d⟩,
   ⟨0x178C, 1, fun _ d => .vertexDataArrayFormat11 d⟩,
   ⟨0x1790, 1, fun _ d => .vertexDataArrayFormat12 d⟩,
   ⟨0x1794, 1, fun _ d => .vertexDataArrayFormat13 d⟩] ++
  [⟨0x1798, 1, fun _ d => .vertexDataArrayFormat14 d⟩,
   ⟨0x179C, 1, fun _ d => .vertexDataArrayFormat15 d⟩,
   ⟨0x17BC, 1, fun _ d => .logicOpEnable d⟩,
   ⟨0x17C0, 1, fun _ d => .logicOp d⟩,
   ⟨0x17FC, 1, fun _ d => .beginEnd d⟩,
   ⟨0x1800, 1, fun _ d => .arrayElement16 d⟩,
   ⟨0x1808, 1, fun _ d => .arrayElement32 d⟩,
   ⟨0x1810, 1, fun _ d => .drawArrays d⟩,
   ⟨0x1818, 1, fun _ d => .inlineArray d⟩,
   ⟨0x1880, 32, fun k d => .vertexData2fM (BitVec.ofNat 4 (k / 2)) (BitVec.ofNat 1 k) d⟩,
   ⟨0x1900, 16, fun k d => .vertexData2s (BitVec.ofNat 4 k) d⟩,
   ⟨0x1940, 16, fun k d => .vertexData4ub (BitVec.ofNat 4 k) d⟩,
   ⟨0x1980, 32, fun k d => .vertexData4sM (BitVec.ofNat 4 (k / 2)) (BitVec.ofNat 1 k) d⟩,
   ⟨0x1A00, 64, fun k d => .vertexData4fM (BitVec.ofNat 4 (k / 4)) (BitVec.ofNat 2 k) d⟩,
   ⟨0x1B00, 1, fun _ d => .textureOffset0 d⟩,
   ⟨0x1B40, 1, fun _ d => .textureOffset1 d⟩] ++
  [⟨0x1B80, 1, fun _ d => .textureOffset2 d⟩,
   ⟨0x1BC0, 1, fun _ d => .textureOffset3 d⟩,
   ⟨0x1B04, 1, fun _ d => .textureFormat0 d⟩,
   ⟨0x1B44, 1, fun _ d => .textureFormat1 d⟩,
   ⟨0x1B84, 1, fun _ d => .textureFormat2 d⟩,
   ⟨0x1BC4, 1, fun _ d => .textureFormat3 d⟩,
   ⟨0x1B08, 1, fun _ d => .textureAddress0 d⟩,
   ⟨0x1B48, 1, fun _ d => .textureAddress1 d⟩,
   ⟨0x1B88, 1, fun _ d => .textureAddress2 d⟩,
   ⟨0x1BC8, 1, fun _ d => .textureAddress3 d⟩,
   ⟨0x1B0C, 1, fun _ d => .textureControl0N0 d⟩,
   ⟨0x1B4C, 1, fun _ d => .textureControl0N1 d⟩,
   ⟨0x1B8C, 1, fun _ d => .textureControl0N2 d⟩,
   ⟨0x1BCC, 1, fun _ d => .textureControl0N3 d⟩,
   ⟨0x1B10, 1, fun _ d => .textureControl1N0 d⟩,
   ⟨0x1B50, 1, fun _ d => .textureControl1N1 d⟩] ++
  [⟨0x1B90, 1, fun _ d => .textureControl1N2 d⟩,
   ⟨0x1BD0, 1, fun _ d => .textureControl1N3 d⟩,
   ⟨0x1B1C, 1, fun _ d => .textureImageRect0 d⟩,
   ⟨0x1B5C, 1, fun _ d => .textureImageRect1 d⟩,
   ⟨0x1B9C, 1, fun _ d => .textureImageRect2 d⟩,
   ⟨0x1BDC, 1, fun _ d => .textureImageRect3 d⟩,
   ⟨0x1D8C, 1, fun _ d => .zstencilClearValue d⟩,
   ⟨0x1D90, 1, fun _ d => .colorClearValue d⟩,
   ⟨0x1D94, 1, fun _ d => .clearSurface d⟩,
   ⟨0x1D98, 1, fun _ d => .clearRectHorizontal d⟩,
   ⟨0x1D9C, 1, fun _ d => .clearRectVertical d⟩,
   ⟨0x1E20, 2, fun k d => .specularFogFactor (BitVec.ofNat 1 k) d⟩,
   ⟨0x1E40, 8, fun k d => .combinerColorOcw (BitVec.ofNat 3 k) d⟩,
   ⟨0x1E60, 1, fun _ d => .combinerControl d⟩,
   ⟨0x1E94, 1, fun _ d => .transformExecutionMode d⟩,
   ⟨0x1E9C, 1, fun _ d => .transformProgramLoad d⟩] ++
  [⟨0x1EA0, 1, fun _ d => .transformProgramStart d⟩,
   ⟨0x1EA4, 1, fun _ d => .transformConstantLoad d⟩]

/-- The method that the table of R121 has at byte address `a`, written with `d`. -/
def methodAt (a : Nat) (d : Word) : Option Instr :=
  (methodMap.find? fun r => r.holds a).map fun r => r.make ((a - r.base) / 4) d

/-- The default of `METHOD_MAP` (R120): every method at its own address. -/
def methodRanges : List MethodRange := methodMap.map fun r => ⟨r.base, r.slots, r.base⟩

/-- The row of a `METHOD_MAP` holds the method byte address `a`. -/
def MethodRange.holds (r : MethodRange) (a : Nat) : Bool := r.base ≤ a && a < r.base + 4 * r.slots

/-- The instruction that a write of `d` to method word index `m` is by a `METHOD_MAP`; none where no row holds the address (R122). -/
def decodeMethodBy (ranges : List MethodRange) (m : BitVec 11) (d : Word) : Option Instr :=
  match ranges.find? fun r => r.holds (4 * m.toNat) with
  | some r => methodAt (r.home + (4 * m.toNat - r.base)) d
  | none => none

/-- The instruction of a method write by the default map. -/
def decodeMethod (m : BitVec 11) (d : Word) : Option Instr := decodeMethodBy methodRanges m d

/-- The four words of a vertex-program instruction. -/
structure VpWords where
  w0 : Word
  w1 : Word
  w2 : Word
  w3 : Word
deriving DecidableEq, Repr

/-- `len` bits of the four words from a place up. -/
def vpField (ws : VpWords) (p : VpPlace) (len : Nat) : BitVec len :=
  match p.word with
  | 0 => field ws.w0 p.lo len
  | 1 => field ws.w1 p.lo len
  | 2 => field ws.w2 p.lo len
  | _ => field ws.w3 p.lo len

/-- The default of `VP_LAYOUT` (R130). -/
def vpLayout : VpLayout :=
  { sop := ⟨1, 25⟩, vop := ⟨1, 21⟩, cidx := ⟨1, 13⟩, vidx := ⟨1, 9⟩
    aNeg := ⟨1, 8⟩, aSwz := ⟨1, 0⟩, aReg := ⟨2, 28⟩, aMux := ⟨2, 26⟩
    bNeg := ⟨2, 25⟩, bSwz := ⟨2, 17⟩, bReg := ⟨2, 13⟩, bMux := ⟨2, 11⟩
    cNeg := ⟨2, 10⟩, cSwz := ⟨2, 2⟩, cRegHi := ⟨2, 0⟩, cRegLo := ⟨3, 30⟩, cMux := ⟨3, 28⟩
    vtMask := ⟨3, 24⟩, rDst := ⟨3, 20⟩, stMask := ⟨3, 16⟩, oMask := ⟨3, 12⟩, orb := ⟨3, 11⟩, oAddr := ⟨3, 3⟩
    oMux := ⟨3, 2⟩, a0x := ⟨3, 1⟩, final := ⟨3, 0⟩ }

/-- The fields of a vertex-program instruction by a layout (R130). -/
def vpFieldsBy (l : VpLayout) (ws : VpWords) : VpFields :=
  { cidx := vpField ws l.cidx 8
    vidx := vpField ws l.vidx 4
    a := ⟨vpField ws l.aNeg 1, vpField ws l.aSwz 8, vpField ws l.aReg 4, vpField ws l.aMux 2⟩
    b := ⟨vpField ws l.bNeg 1, vpField ws l.bSwz 8, vpField ws l.bReg 4, vpField ws l.bMux 2⟩
    c := ⟨vpField ws l.cNeg 1, vpField ws l.cSwz 8, vpField ws l.cRegHi 2 ++ vpField ws l.cRegLo 2, vpField ws l.cMux 2⟩
    vtMask := vpField ws l.vtMask 4
    rDst := vpField ws l.rDst 4
    stMask := vpField ws l.stMask 4
    oMask := vpField ws l.oMask 4
    orb := vpField ws l.orb 1
    oAddr := vpField ws l.oAddr 8
    oMux := vpField ws l.oMux 1
    a0x := vpField ws l.a0x 1
    final := vpField ws l.final 1 }

/-- The vector opcode by a layout (R130). -/
def vpVopBy (l : VpLayout) (ws : VpWords) : BitVec 4 := vpField ws l.vop 4

/-- The scalar opcode by a layout (R130). -/
def vpSopBy (l : VpLayout) (ws : VpWords) : BitVec 4 := vpField ws l.sop 4

/-- The default tables (R110, R121, R130): assumption log 7. -/
def Tables.init : Tables := ⟨Sys2Proof.cmdDecode, methodRanges, Sys2Proof.vpLayout⟩

/-- The instruction of the vector slot (R137); 14 and 15 are reserved. -/
def decodeVector (vop sop : BitVec 4) (f : VpFields) : Option Instr :=
  match vop with
  | 0 => some (.vpNop sop f)
  | 1 => some (.vpMov sop f)
  | 2 => some (.vpMul sop f)
  | 3 => some (.vpAdd sop f)
  | 4 => some (.vpMad sop f)
  | 5 => some (.vpDp3 sop f)
  | 6 => some (.vpDph sop f)
  | 7 => some (.vpDp4 sop f)
  | 8 => some (.vpDst sop f)
  | 9 => some (.vpMin sop f)
  | 10 => some (.vpMax sop f)
  | 11 => some (.vpSlt sop f)
  | 12 => some (.vpSge sop f)
  | 13 => some (.vpArl sop f)
  | _ => none

/-- The instruction of the scalar slot (R138); 8 to 15 are reserved. -/
def decodeScalar (vop sop : BitVec 4) (f : VpFields) : Option Instr :=
  match sop with
  | 0 => some (.vpSNop vop f)
  | 1 => some (.vpSImv vop f)
  | 2 => some (.vpSRcp vop f)
  | 3 => some (.vpSRcc vop f)
  | 4 => some (.vpSRsq vop f)
  | 5 => some (.vpSExp vop f)
  | 6 => some (.vpSLog vop f)
  | 7 => some (.vpSLit vop f)
  | _ => none

/-- The decoder by its tables: the words that a slot takes, read as the instruction they are. -/
def decodeBy (t : Tables) : Slot → List Word → Except DecodeError Instr
  | .command, [w] => .ok (decodeCommandBy t.cmdDecode w)
  | .bind, [w] => .ok (.bindObject w)
  | .method m, [d] =>
    match decodeMethodBy t.methodMap m d with
    | some i => .ok i
    | none => .error (.unassignedMethod m)
  | .vector, [w0, w1, w2, w3] =>
    let ws : VpWords := ⟨w0, w1, w2, w3⟩
    match decodeVector (vpVopBy t.vpLayout ws) (vpSopBy t.vpLayout ws) (vpFieldsBy t.vpLayout ws) with
    | some i => .ok i
    | none => .error (.reservedVop (vpVopBy t.vpLayout ws))
  | .scalar, [w0, w1, w2, w3] =>
    let ws : VpWords := ⟨w0, w1, w2, w3⟩
    match decodeScalar (vpVopBy t.vpLayout ws) (vpSopBy t.vpLayout ws) (vpFieldsBy t.vpLayout ws) with
    | some i => .ok i
    | none => .error (.reservedSop (vpSopBy t.vpLayout ws))
  | _, ws => .error (.wrongLength (4 * ws.length))

/-- The decoder by the default tables. -/
def decode (slot : Slot) (ws : List Word) : Except DecodeError Instr := decodeBy .init slot ws

/-- Four bytes in address order as a word (R83: little-endian). -/
def wordOfBytes (b0 b1 b2 b3 : Byte) : Word := b3 ++ b2 ++ b1 ++ b0

/-- A byte string as words; none where it ends inside a word. -/
def wordsOfBytes : List Byte → Option (List Word)
  | [] => some []
  | b0 :: b1 :: b2 :: b3 :: rest => (wordsOfBytes rest).map (wordOfBytes b0 b1 b2 b3 :: ·)
  | _ => none

/-- A word as it lies in memory (R83: little-endian). -/
def bytesOfWord (w : Word) : List Byte := [field w 0 8, field w 8 8, field w 16 8, field w 24 8]

/-- The decoder by its tables on bytes in address order: total, refusing by name. -/
def decodeBytesBy (t : Tables) (slot : Slot) (bytes : List Byte) : Except DecodeError Instr :=
  match wordsOfBytes bytes with
  | some ws => decodeBy t slot ws
  | none => .error (.wrongLength bytes.length)

/-- The decoder by the default tables on bytes in address order. -/
def decodeBytes (slot : Slot) (bytes : List Byte) : Except DecodeError Instr := decodeBytesBy .init slot bytes

/-- Which operands A, B, C the vector opcode reads (R139). -/
def vectorReads (vop : BitVec 4) : Bool × Bool × Bool :=
  match vop with
  | 1 | 13 => (true, false, false)
  | 2 | 5 | 6 | 7 | 8 | 9 | 10 | 11 | 12 => (true, true, false)
  | 3 => (true, false, true)
  | 4 => (true, true, true)
  | _ => (false, false, false)

/-- The scalar opcode reads operand C (R139): every one but NOP. -/
def scalarReads (sop : BitVec 4) : Bool := sop != 0

/-! ### The encoder -/

/-- A method header (R111). `top` is bits 31:29, 0 for increasing and 2 for non-increasing. -/
def headerWord (top : BitVec 3) (mthd : BitVec 11) (subc : BitVec 3) (count : BitVec 11) : Word :=
  top ++ count ++ 0#2 ++ subc ++ mthd ++ 0#2

/-- The four words of a vertex-program instruction (R130). -/
def encodeVp (vop sop : BitVec 4) (f : VpFields) : List Word :=
  [0,
   0#3 ++ sop ++ vop ++ f.cidx ++ f.vidx ++ f.a.neg ++ f.a.swz,
   f.a.reg ++ f.a.mux ++ f.b.neg ++ f.b.swz ++ f.b.reg ++ f.b.mux ++ f.c.neg ++ f.c.swz ++ f.c.reg.extractLsb' 2 2,
   f.c.reg.extractLsb' 0 2 ++ f.c.mux ++ f.vtMask ++ f.rDst ++ f.stMask ++ f.oMask ++ f.orb ++ f.oAddr ++ f.oMux ++ f.a0x ++ f.final]

/-- The slot and the data word of a write of `d` to slot `k` of the map's row at `base`. -/
def encodeMethod (base : Nat) (k : BitVec 11) (d : Word) : Slot × List Word :=
  (.method (BitVec.ofNat 11 (base / 4) + k), [d])

/-- The encoder: the slot an instruction stands in and its words there. -/
def encode : Instr → Slot × List Word
  | .jump t => (.command, [t ++ 1#2])
  | .call t => (.command, [t ++ 2#2])
  | .increasing m c n => (.command, [headerWord 0 m c n])
  | .nonincreasing m c n => (.command, [headerWord 2 m c n])
  | .longNonincreasing m c => (.command, [3#16 ++ c ++ m ++ 0#2])
  | .ret => (.command, [0x00020000])
  | .oldJump t => (.command, [1#3 ++ t ++ 0#2])
  | .sliConditional x => (.command, [1#16 ++ x ++ 0#2])
  | .invalid w => (.command, [w])
  | .bindObject h => (.bind, [h])
  | .noOperation d => encodeMethod 0x0100 0 d
  | .waitForVblank d => encodeMethod 0x0130 0 d
  | .surfaceClipHorizontal d => encodeMethod 0x0200 0 d
  | .surfaceClipVertical d => encodeMethod 0x0204 0 d
  | .surfaceFormat d => encodeMethod 0x0208 0 d
  | .surfacePitch d => encodeMethod 0x020C 0 d
  | .surfaceColorOffset d => encodeMethod 0x0210 0 d
  | .surfaceZetaOffset d => encodeMethod 0x0214 0 d
  | .combinerAlphaIcw k d => encodeMethod 0x0260 (k.setWidth 11) d
  | .combinerSpecularFogCw0 d => encodeMethod 0x0288 0 d
  | .combinerSpecularFogCw1 d => encodeMethod 0x028C 0 d
  | .alphaTestEnable d => encodeMethod 0x0300 0 d
  | .blendEnable d => encodeMethod 0x0304 0 d
  | .depthTestEnable d => encodeMethod 0x030C 0 d
  | .stencilTestEnable d => encodeMethod 0x032C 0 d
  | .alphaFunc d => encodeMethod 0x033C 0 d
  | .alphaRef d => encodeMethod 0x0340 0 d
  | .blendFuncSfactor d => encodeMethod 0x0344 0 d
  | .blendFuncDfactor d => encodeMethod 0x0348 0 d
  | .blendColor d => encodeMethod 0x034C 0 d
  | .blendEquation d => encodeMethod 0x0350 0 d
  | .depthFunc d => encodeMethod 0x0354 0 d
  | .colorMask d => encodeMethod 0x0358 0 d
  | .depthMask d => encodeMethod 0x035C 0 d
  | .stencilMask d => encodeMethod 0x0360 0 d
  | .stencilFunc d => encodeMethod 0x0364 0 d
  | .stencilFuncRef d => encodeMethod 0x0368 0 d
  | .stencilFuncMask d => encodeMethod 0x036C 0 d
  | .stencilOpFail d => encodeMethod 0x0370 0 d
  | .stencilOpZfail d => encodeMethod 0x0374 0 d
  | .stencilOpZpass d => encodeMethod 0x0378 0 d
  | .projectionMatrix k d => encodeMethod 0x0440 (k.setWidth 11) d
  | .modelViewMatrix k d => encodeMethod 0x0480 (k.setWidth 11) d
  | .inverseModelViewMatrix k d => encodeMethod 0x0580 (k.setWidth 11) d
  | .compositeMatrix k d => encodeMethod 0x0680 (k.setWidth 11) d
  | .viewportOffset k d => encodeMethod 0x0A20 (k.setWidth 11) d
  | .combinerFactor0 k d => encodeMethod 0x0A60 (k.setWidth 11) d
  | .combinerFactor1 k d => encodeMethod 0x0A80 (k.setWidth 11) d
  | .combinerAlphaOcw k d => encodeMethod 0x0AA0 (k.setWidth 11) d
  | .combinerColorIcw k d => encodeMethod 0x0AC0 (k.setWidth 11) d
  | .viewportScale k d => encodeMethod 0x0AF0 (k.setWidth 11) d
  | .transformProgram k d => encodeMethod 0x0B00 (k.setWidth 11) d
  | .transformConstant k d => encodeMethod 0x0B80 (k.setWidth 11) d
  | .vertex3f0 d => encodeMethod 0x1500 0 d
  | .vertex3f1 d => encodeMethod 0x1504 0 d
  | .vertex3f2 d => encodeMethod 0x1508 0 d
  | .vertex4f0 d => encodeMethod 0x1518 0 d
  | .vertex4f1 d => encodeMethod 0x151C 0 d
  | .vertex4f2 d => encodeMethod 0x1520 0 d
  | .vertex4f3 d => encodeMethod 0x1524 0 d
  | .vertexDataArrayOffset0 d => encodeMethod 0x1720 0 d
  | .vertexDataArrayOffset1 d => encodeMethod 0x1724 0 d
  | .vertexDataArrayOffset2 d => encodeMethod 0x1728 0 d
  | .vertexDataArrayOffset3 d => encodeMethod 0x172C 0 d
  | .vertexDataArrayOffset4 d => encodeMethod 0x1730 0 d
  | .vertexDataArrayOffset5 d => encodeMethod 0x1734 0 d
  | .vertexDataArrayOffset6 d => encodeMethod 0x1738 0 d
  | .vertexDataArrayOffset7 d => encodeMethod 0x173C 0 d
  | .vertexDataArrayOffset8 d => encodeMethod 0x1740 0 d
  | .vertexDataArrayOffset9 d => encodeMethod 0x1744 0 d
  | .vertexDataArrayOffset10 d => encodeMethod 0x1748 0 d
  | .vertexDataArrayOffset11 d => encodeMethod 0x174C 0 d
  | .vertexDataArrayOffset12 d => encodeMethod 0x1750 0 d
  | .vertexDataArrayOffset13 d => encodeMethod 0x1754 0 d
  | .vertexDataArrayOffset14 d => encodeMethod 0x1758 0 d
  | .vertexDataArrayOffset15 d => encodeMethod 0x175C 0 d
  | .vertexDataArrayFormat0 d => encodeMethod 0x1760 0 d
  | .vertexDataArrayFormat1 d => encodeMethod 0x1764 0 d
  | .vertexDataArrayFormat2 d => encodeMethod 0x1768 0 d
  | .vertexDataArrayFormat3 d => encodeMethod 0x176C 0 d
  | .vertexDataArrayFormat4 d => encodeMethod 0x1770 0 d
  | .vertexDataArrayFormat5 d => encodeMethod 0x1774 0 d
  | .vertexDataArrayFormat6 d => encodeMethod 0x1778 0 d
  | .vertexDataArrayFormat7 d => encodeMethod 0x177C 0 d
  | .vertexDataArrayFormat8 d => encodeMethod 0x1780 0 d
  | .vertexDataArrayFormat9 d => encodeMethod 0x1784 0 d
  | .vertexDataArrayFormat10 d => encodeMethod 0x1788 0 d
  | .vertexDataArrayFormat11 d => encodeMethod 0x178C 0 d
  | .vertexDataArrayFormat12 d => encodeMethod 0x1790 0 d
  | .vertexDataArrayFormat13 d => encodeMethod 0x1794 0 d
  | .vertexDataArrayFormat14 d => encodeMethod 0x1798 0 d
  | .vertexDataArrayFormat15 d => encodeMethod 0x179C 0 d
  | .logicOpEnable d => encodeMethod 0x17BC 0 d
  | .logicOp d => encodeMethod 0x17C0 0 d
  | .beginEnd d => encodeMethod 0x17FC 0 d
  | .arrayElement16 d => encodeMethod 0x1800 0 d
  | .arrayElement32 d => encodeMethod 0x1808 0 d
  | .drawArrays d => encodeMethod 0x1810 0 d
  | .inlineArray d => encodeMethod 0x1818 0 d
  | .vertexData2fM k c d => encodeMethod 0x1880 ((k ++ c).setWidth 11) d
  | .vertexData2s k d => encodeMethod 0x1900 (k.setWidth 11) d
  | .vertexData4ub k d => encodeMethod 0x1940 (k.setWidth 11) d
  | .vertexData4sM k c d => encodeMethod 0x1980 ((k ++ c).setWidth 11) d
  | .vertexData4fM k c d => encodeMethod 0x1A00 ((k ++ c).setWidth 11) d
  | .textureOffset0 d => encodeMethod 0x1B00 0 d
  | .textureOffset1 d => encodeMethod 0x1B40 0 d
  | .textureOffset2 d => encodeMethod 0x1B80 0 d
  | .textureOffset3 d => encodeMethod 0x1BC0 0 d
  | .textureFormat0 d => encodeMethod 0x1B04 0 d
  | .textureFormat1 d => encodeMethod 0x1B44 0 d
  | .textureFormat2 d => encodeMethod 0x1B84 0 d
  | .textureFormat3 d => encodeMethod 0x1BC4 0 d
  | .textureAddress0 d => encodeMethod 0x1B08 0 d
  | .textureAddress1 d => encodeMethod 0x1B48 0 d
  | .textureAddress2 d => encodeMethod 0x1B88 0 d
  | .textureAddress3 d => encodeMethod 0x1BC8 0 d
  | .textureControl0N0 d => encodeMethod 0x1B0C 0 d
  | .textureControl0N1 d => encodeMethod 0x1B4C 0 d
  | .textureControl0N2 d => encodeMethod 0x1B8C 0 d
  | .textureControl0N3 d => encodeMethod 0x1BCC 0 d
  | .textureControl1N0 d => encodeMethod 0x1B10 0 d
  | .textureControl1N1 d => encodeMethod 0x1B50 0 d
  | .textureControl1N2 d => encodeMethod 0x1B90 0 d
  | .textureControl1N3 d => encodeMethod 0x1BD0 0 d
  | .textureImageRect0 d => encodeMethod 0x1B1C 0 d
  | .textureImageRect1 d => encodeMethod 0x1B5C 0 d
  | .textureImageRect2 d => encodeMethod 0x1B9C 0 d
  | .textureImageRect3 d => encodeMethod 0x1BDC 0 d
  | .zstencilClearValue d => encodeMethod 0x1D8C 0 d
  | .colorClearValue d => encodeMethod 0x1D90 0 d
  | .clearSurface d => encodeMethod 0x1D94 0 d
  | .clearRectHorizontal d => encodeMethod 0x1D98 0 d
  | .clearRectVertical d => encodeMethod 0x1D9C 0 d
  | .specularFogFactor k d => encodeMethod 0x1E20 (k.setWidth 11) d
  | .combinerColorOcw k d => encodeMethod 0x1E40 (k.setWidth 11) d
  | .combinerControl d => encodeMethod 0x1E60 0 d
  | .transformExecutionMode d => encodeMethod 0x1E94 0 d
  | .transformProgramLoad d => encodeMethod 0x1E9C 0 d
  | .transformProgramStart d => encodeMethod 0x1EA0 0 d
  | .transformConstantLoad d => encodeMethod 0x1EA4 0 d
  | .vpNop sop f => (.vector, encodeVp 0 sop f)
  | .vpMov sop f => (.vector, encodeVp 1 sop f)
  | .vpMul sop f => (.vector, encodeVp 2 sop f)
  | .vpAdd sop f => (.vector, encodeVp 3 sop f)
  | .vpMad sop f => (.vector, encodeVp 4 sop f)
  | .vpDp3 sop f => (.vector, encodeVp 5 sop f)
  | .vpDph sop f => (.vector, encodeVp 6 sop f)
  | .vpDp4 sop f => (.vector, encodeVp 7 sop f)
  | .vpDst sop f => (.vector, encodeVp 8 sop f)
  | .vpMin sop f => (.vector, encodeVp 9 sop f)
  | .vpMax sop f => (.vector, encodeVp 10 sop f)
  | .vpSlt sop f => (.vector, encodeVp 11 sop f)
  | .vpSge sop f => (.vector, encodeVp 12 sop f)
  | .vpArl sop f => (.vector, encodeVp 13 sop f)
  | .vpSNop vop f => (.scalar, encodeVp vop 0 f)
  | .vpSImv vop f => (.scalar, encodeVp vop 1 f)
  | .vpSRcp vop f => (.scalar, encodeVp vop 2 f)
  | .vpSRcc vop f => (.scalar, encodeVp vop 3 f)
  | .vpSRsq vop f => (.scalar, encodeVp vop 4 f)
  | .vpSExp vop f => (.scalar, encodeVp vop 5 f)
  | .vpSLog vop f => (.scalar, encodeVp vop 6 f)
  | .vpSLit vop f => (.scalar, encodeVp vop 7 f)

/-- The command stream that runs an instruction on subchannel `subc` (R112, R115): a command word is itself; a bind or a method
write is an increasing header of count 1 and its data word. A vertex-program instruction is no command: it is uploaded (R300). -/
def streamWords (subc : BitVec 3) (i : Instr) : List Word :=
  match encode i with
  | (.command, ws) => ws
  | (.bind, ws) => headerWord 0 0 subc 1 :: ws
  | (.method m, ws) => headerWord 0 m subc 1 :: ws
  | (.vector, ws) => ws
  | (.scalar, ws) => ws

/-! ### One row of the opcode table -/

/-- Which of the three instruction sets (R3) a row of the opcode table belongs to, by the width the table gives it, and the words of
that row in its slot: a method row numbers the 13 bits of the method address; BIND_OBJECT is a header and its handle word; a
vertex-program row numbers the bits of w1. The words the row gives no bits are 0. A 32-bit word whose only bits stand in [28:21] is
read as a vertex-program row. Assumption log 20. -/
def tableRow (nbits w : Nat) : Slot × List Word :=
  let x : Word := BitVec.ofNat 32 w
  if 8 < nbits ∧ nbits ≤ 16 then (.method (field x 2 11), [0])
  else if x &&& 0xFFFF1FFF = 0x00040000 then (.bind, [0])
  else if x &&& 0xE01FFFFF = 0 ∧ x ≠ 0 then (if field x 21 4 = 0 then .scalar else .vector, [0, x, 0, 0])
  else (.command, [x])

/-- The instruction the decoder reads from a row of the opcode table whose bits are `w`. -/
def decodeTableWord (nbits w : Nat) : Option Instr :=
  match decodeBytes (tableRow nbits w).1 ((tableRow nbits w).2.flatMap bytesOfWord) with
  | .ok i => some i
  | .error _ => none

end Sys2Proof
end

