-- ==== Sys2Proof/Machine/Defaults.lean ====
section
/-! DEFINITION. The defaults that the spec gives the parameters `ENUMS`, `MMIO_MAP`, the interrupt bits, `AA_YSCALE` and the numerics:
assumption logs 5 and 7. The defaults of the decode tables stand in Decode.lean. -/

namespace Sys2Proof

/-- The values of R152. -/
def Enums.init : Enums :=
  { compare :=
      [(0x200, .never), (0x201, .less), (0x202, .equal), (0x203, .lequal), (0x204, .greater), (0x205, .notequal), (0x206, .gequal),
        (0x207, .always)]
    stencil :=
      [(0x0000, .zero), (0x150A, .invert), (0x1E00, .keep), (0x1E01, .replace), (0x1E02, .incr), (0x1E03, .decr), (0x8507, .incrWrap),
        (0x8508, .decrWrap)]
    factor :=
      [(0x0000, .zero), (0x0001, .one), (0x0300, .srcColor), (0x0301, .oneMinusSrcColor), (0x0302, .srcAlpha),
        (0x0303, .oneMinusSrcAlpha), (0x0304, .dstAlpha), (0x0305, .oneMinusDstAlpha), (0x0306, .dstColor), (0x0307, .oneMinusDstColor),
        (0x0308, .srcAlphaSaturate), (0x8001, .constantColor), (0x8002, .oneMinusConstantColor), (0x8003, .constantAlpha),
        (0x8004, .oneMinusConstantAlpha)]
    equation := [(0x8006, .add), (0x8007, .min), (0x8008, .max), (0x800A, .subtract), (0x800B, .reverseSubtract)]
    logic :=
      [(0x1500, .clear), (0x1501, .and), (0x1502, .andReverse), (0x1503, .copy), (0x1504, .andInverted), (0x1505, .noop), (0x1506, .xor),
        (0x1507, .or), (0x1508, .nor), (0x1509, .equiv), (0x150A, .invert), (0x150B, .orReverse), (0x150C, .copyInverted),
        (0x150D, .orInverted), (0x150E, .nand), (0x150F, .set)] }

/-- The offsets of R610. -/
def MmioMap.init : MmioMap :=
  { pmcIntr := 0x00000100, pmcEnable := 0x00000140
    pgraphIntr := 0x00400100, notifySrc := 0x00400704, notifyData := 0x00400708, pgraphEnable := 0x00400140
    pcrtcIntr := 0x00600100, pcrtcEnable := 0x00600140, pcrtcStart := 0x00600800
    dmaPut := 0x40, dmaGet := 0x44 }

/-- The bits of R604 and R607. -/
def IrqBits.init : IrqBits := ⟨12, 24, 0x00100000⟩

/-- `AA_YSCALE` of the modes 0, 1 and 2 (R37). -/
def aaYScaleInit : List (BitVec 4 × Nat) := [(0, 1), (1, 1), (2, 2)]

/-- Every numerics parameter at its default (R333, R335 to R337). -/
def Numerics.init : Numerics := ⟨[], [], [], []⟩

end Sys2Proof
end

