-- ==== Sys2Proof/Machine/State.lean ====
section
/-! DEFINITION. The state of the block (10_state.md) as plain data, the reasons a step can stop, and the state after reset (R650).
Banks (`Bank α`) list what differs from the bank's reset value; which value that is stands with each field. -/

namespace Sys2Proof.Machine
open Sys2Proof

/-- Why the machine faults. THE BLOCK HAS NO FAULT: it "has no synchronous exception, trap, fault or abort" (R600) and no stuck state,
so this type has no constructor and no step can end in one. Safe: nothing is hidden here, every error of the spec is a diagnostic
with a defined result (R601) or a refusal (R602). -/
inductive Fault where
deriving DecidableEq, Repr

/-- Why the model gives a run no result (R602). Each is safe: the run stops, and nothing can be proved of what follows. -/
inductive Refusal where
  /-- Raised by `exec` for an instruction that has no meaning yet. Safe. -/
  | notModelled (mnemonic : String)
  /-- `REFUSED(VP_RESERVED, vpip)` (R340), raised by the vertex-program unit: a reserved opcode, or an operand of kind 0 that is
  read. Safe. -/
  | vpReserved (vpip : BitVec 9)
  /-- `REFUSED(CMB_RESERVED)` (R481, R486), raised by the combiner engine: a reserved register code or output operation. Safe. -/
  | cmbReserved
  /-- `REFUSED(BAD_ENUM)` (R598), raised by the pixel pipeline: a stored word outside its enumeration, when used. Safe. -/
  | badEnum (word : Word)
  /-- `REFUSED(MMIO_WIDTH)` (R86, R602), raised by the host interface: an MMIO access that is no aligned 32-bit word. Safe. -/
  | mmioWidth
deriving DecidableEq, Repr

/-! ### The command puller (R32 to R35) -/

/-- Why a channel is suspended (R33). -/
inductive Wait where
  | vblank
  | pgraphIdle
deriving DecidableEq, Repr

/-- The puller status of a channel (R33). -/
inductive PState where
  | run
  | susp (reason : Wait)
deriving DecidableEq, Repr

/-- The burst in progress (R34). -/
structure Burst where
  mthd : BitVec 11
  subc : BitVec 3
  count : BitVec 24
  incr : Bool
  bind : Bool
  lpend : Bool
deriving DecidableEq, Repr

/-- No burst (R34): every field zero. -/
def Burst.none : Burst := ⟨0, 0, 0, false, false, false⟩

/-- One channel: `PUT`, `GET`, `pstate`, `burst` (R32 to R34). -/
structure Channel where
  put : Word
  get : Word
  pstate : PState
  burst : Burst
deriving DecidableEq, Repr

/-- A channel after reset (R32 to R34). -/
def Channel.init : Channel := ⟨0, 0, .run, .none⟩

/-- `objhandle` and `objclass` of one subchannel of one channel (R35). -/
structure Subchannel where
  handle : Word
  cls : Word
deriving DecidableEq, Repr

/-- No object bound (R35). -/
def Subchannel.none : Subchannel := ⟨0, 0⟩

/-- What `ObjectLookup` gives for a handle (R88). -/
structure ObjInfo where
  cls : Word
  inst : Word
deriving DecidableEq, Repr

/-! ### Render target, clear and per-pixel state (R36 to R40) -/

/-- The render-target descriptor (R36). -/
structure Surface where
  clipX : BitVec 16
  clipW : BitVec 16
  clipY : BitVec 16
  clipH : BitVec 16
  colorFmt : BitVec 4
  zetaFmt : BitVec 4
  layout : BitVec 4
  aa : BitVec 4
  log2w : BitVec 8
  log2h : BitVec 8
  colorPitch : BitVec 16
  zetaPitch : BitVec 16
  colorOffset : Word
  zetaOffset : Word
deriving DecidableEq, Repr

/-- Clear state (R38). -/
structure ClearState where
  color : Word
  zstencil : Word
  x0 : BitVec 16
  x1 : BitVec 16
  y0 : BitVec 16
  y1 : BitVec 16
deriving DecidableEq, Repr

/-- Per-pixel state (R40). An enumerated field holds the whole data word (R524 and its like). -/
structure PixelState where
  alphaTestEn : Bool
  alphaFunc : Word
  alphaRef : BitVec 8
  depthTestEn : Bool
  depthFunc : Word
  depthWriteEn : Bool
  stencilTestEn : Bool
  stencilFunc : Word
  stencilRef : BitVec 8
  stencilFuncMask : BitVec 8
  stencilWriteMask : BitVec 8
  stencilOpFail : Word
  stencilOpZfail : Word
  stencilOpZpass : Word
  blendEn : Bool
  blendSfactor : Word
  blendDfactor : Word
  blendEq : Word
  blendColor : Word
  logicOpEn : Bool
  logicOp : Word
  cmaskA : Bool
  cmaskR : Bool
  cmaskG : Bool
  cmaskB : Bool
deriving DecidableEq, Repr

/-- The per-pixel state after reset (R40). -/
def PixelState.init : PixelState :=
  { alphaTestEn := false, alphaFunc := 0x207, alphaRef := 0
    depthTestEn := false, depthFunc := 0x201, depthWriteEn := true
    stencilTestEn := false, stencilFunc := 0x207, stencilRef := 0, stencilFuncMask := 0xFF, stencilWriteMask := 0xFF
    stencilOpFail := 0x1E00, stencilOpZfail := 0x1E00, stencilOpZpass := 0x1E00
    blendEn := false, blendSfactor := 0x0001, blendDfactor := 0x0000, blendEq := 0x8006, blendColor := 0
    logicOpEn := false, logicOp := 0x1503
    cmaskA := true, cmaskR := true, cmaskG := true, cmaskB := true }

/-! ### Vertex input and primitive state (R41 to R43, R51) -/

/-- One vertex-array slot (R41). -/
structure VaSlot where
  offset : Word
  type : BitVec 4
  size : BitVec 4
  stride : BitVec 24
deriving DecidableEq, Repr

/-- A slot after reset (R41). -/
def VaSlot.init : VaSlot := ⟨0, 0, 0, 0⟩

/-- The vertex arrays and the inline buffer (R41, R51): 16 slots (default `VaSlot.init`), 64 words (default 0) and their count. -/
structure VertexArrays where
  slots : Bank VaSlot
  ibuf : Bank Word
  ibufN : BitVec 7
deriving DecidableEq, Repr

/-- The 13 interpolation parameters of a transformed vertex (R43): z, colour, four texture coordinate pairs. -/
structure Par13 where
  z : Word
  r : Word
  g : Word
  b : Word
  a : Word
  u0 : Word
  v0 : Word
  u1 : Word
  v1 : Word
  u2 : Word
  v2 : Word
  u3 : Word
  v3 : Word
deriving DecidableEq, Repr

/-- A transformed vertex (R43). -/
structure TVertex where
  x : Word
  y : Word
  w : Word
  p : Par13
deriving DecidableEq, Repr

/-- A ring entry after reset (R43). -/
def TVertex.zero : TVertex := ⟨0, 0, 0, ⟨0, 0, 0, 0, 0, 0, 0, 0, 0, 0, 0, 0, 0⟩⟩

/-- The pixel shader of a primitive (R43, R390). -/
inductive Shader where
  | flat
  | tex0
  | combiner
deriving DecidableEq, Repr

/-- Primitive assembler state (R43): the ring holds 1025 entries (default `TVertex.zero`), index 1024 being the keep slot. -/
structure Prim where
  primType : BitVec 4
  ring : Bank TVertex
  vcount : Word
  rhead : BitVec 10
  rsel : Shader
deriving DecidableEq, Repr

/-! ### Transform and vertex program (R44 to R46) -/

/-- The matrices, 16 words each in upload order, and the viewport vectors (R44); default 0. -/
structure Transform where
  proj : Bank Word
  modelview : Bank Word
  invModelview : Bank Word
  composite : Bank Word
  vpScale : Vec4
  vpOffset : Vec4
deriving DecidableEq, Repr

/-- Vertex-program memories and registers (R45) and the working registers of the vertex in progress (R46). `vpi` holds word `j` of
instruction `i` at index `4 * i + j` (default 0); `vpc` 192 constants, `v`, `r`, `o` 16 vectors each (default 0.0). -/
structure VProg where
  vpi : Bank Word
  vpc : Bank Vec4
  a0x : Word
  load : BitVec 8
  word : BitVec 2
  cLoad : BitVec 8
  cWord : BitVec 2
  start : BitVec 8
  mode : Bool
  ip : BitVec 9
  v : Bank Vec4
  r : Bank Vec4
  o : Bank Vec4
deriving DecidableEq, Repr

/-! ### Textures and combiners (R47, R48) -/

/-- One texture unit's stored fields (R47). -/
structure TexUnit where
  offset : Word
  fmt : BitVec 8
  log2u : BitVec 4
  log2v : BitVec 4
  mips : BitVec 4
  enable : Bool
  colorKey : BitVec 2
  pitch : BitVec 16
  rw : BitVec 16
  rh : BitVec 16
  addr : Word
deriving DecidableEq, Repr

/-- A texture unit after reset (R47). -/
def TexUnit.init : TexUnit := ⟨0, 0, 0, 0, 0, false, 0, 0, 0, 0, 0⟩

/-- One general combiner stage (R48). -/
structure CmbStage where
  cicw : Word
  aicw : Word
  cocw : Word
  aocw : Word
  fac0 : Word
  fac1 : Word
deriving DecidableEq, Repr

/-- A stage after reset (R48). -/
def CmbStage.init : CmbStage := ⟨0, 0, 0, 0, 0, 0⟩

/-- The combiner configuration (R48): stage count, 8 stages (default `CmbStage.init`), final stage. -/
structure Combiner where
  stages : BitVec 4
  stage : Bank CmbStage
  fcw0 : Word
  fcw1 : Word
  ffac0 : Word
  ffac1 : Word
deriving DecidableEq, Repr

/-! ### Interrupt registers (R39, R55 to R58) -/

/-- The interrupt registers, the display pointer, the interrupt output and the levels passed to the interrupt callback so far, oldest
first (R604). -/
structure Irq where
  pmcIntr : Word
  pmcEnable : Word
  pgraphIntr : Word
  pgraphEnable : Word
  notifySrc : Word
  notifyData : Word
  pcrtcIntr : Word
  pcrtcEnable : Word
  displayed : Word
  line : Bool
  callbacks : List Bool
deriving DecidableEq, Repr

/-! ### Memory, diagnostics, agents -/

/-- Physical memory (R80) as the bytes that differ from what an unlisted byte reads as, addresses strictly rising. -/
abbrev Memory := List Host.Cell

/-- The diagnostic kinds (R601). -/
inductive DiagKind where
  | badCommand
  | unimplementedReturn
  | unimplementedCommand
  | unknownHandle
  | oorRead
  | oorWrite
  | unsupportedVtxType
  | emptyLayout
  | vertexOutsideBegin
  | unsupportedTopology
  | constOor
  | vpNoEnd
  | vpOutOor
  | nonfiniteVertex
  | emptyTexture
  | unsupportedTextureFormat
  | cmbStages
  | cmbBadDest
  | unsupportedSurface
  | noZeta
deriving DecidableEq, Repr

/-- One entry of the diagnostic log (R620). -/
structure Diag where
  kind : DiagKind
  ch : BitVec 5
  get : Word
deriving DecidableEq, Repr

/-- What the rendering pipeline reads and writes while it works: physical memory and the diagnostic log, oldest first (R80, R603). -/
structure Bus where
  mem : Memory
  diag : List Diag
deriving DecidableEq, Repr

/-- The named parameters that are fixed for a machine (R10 and 93_implementation_defined.md, part 1). No step changes them. -/
structure Params where
  /-- `PHYS_SIZE` (R80). -/
  physSize : Nat
  /-- `W_EPS` (R380). -/
  wEps : Word
  /-- `PB_BASE` of each channel (R99); default 0. -/
  pbBase : Bank Word
  /-- `KELVIN_CLASS` (R167). -/
  kelvinClass : Word
  /-- `CMD_DECODE` (R110), `METHOD_MAP` (R120), `VP_LAYOUT` (R130). -/
  tables : Tables
  /-- `DXT35_COLOR_MODE` (R447). -/
  dxt35Mode : DxtColorMode
  /-- The base address of the register aperture on the system bus (R86). -/
  mmioBase : Word
  /-- `MMIO_MAP` (R610). -/
  mmioMap : MmioMap
  /-- `PMC_PGRAPH_BIT`, `PMC_PCRTC_BIT` (R604), `PGRAPH_NOTIFY_BIT` (R607). -/
  irqBits : IrqBits
  /-- `ENUMS` (R152). -/
  enums : Enums
  /-- `AA_YSCALE` by mode (R37). -/
  aaYScale : List (BitVec 4 × Nat)
  /-- `RCC_FN`, `EXP2_TRUNC`, `LOG2_FN`, `POW` (R333, R335 to R337). -/
  numerics : Numerics
deriving DecidableEq, Repr

/-- One move of one agent (R16, R671): a puller step of a channel, a vblank, or a step of the host bus master. An MMIO access has its
address on the system bus (R86) and its width in bytes; `placeObject` is the host changing what `ObjectLookup` gives for a handle (R88, R652). -/
inductive Agent where
  | puller (ch : BitVec 5)
  | vblank
  | mmioWrite (addr : Word) (bytes : Nat) (v : Word)
  | mmioRead (addr : Word) (bytes : Nat)
  | memWrite (addr : Word) (data : List Byte)
  | placeObject (ch : BitVec 5) (handle : Word) (o : Option ObjInfo)
deriving DecidableEq, Repr

/-- The machine. `par`, `objects`, `agenda`, `cur` and `hostData` are the MODEL's own fields: the parameters, the moves that the
agents make next (oldest first; D44 leaves their order open), the channel whose word is being processed, and the value the host's last
MMIO read returned. -/
structure State where
  par : Params
  /-- `ObjectLookup` (R88), by `2^32 * ch + handle`; default none. -/
  objects : Bank (Option ObjInfo)
  agenda : List Agent
  cur : BitVec 5
  hostData : Word
  /-- The 32 channels (R32 to R34); default `Channel.init`. -/
  chans : Bank Channel
  /-- The bindings, by `8 * ch + subc` (R35); default `Subchannel.none`. -/
  subs : Bank Subchannel
  /-- `regs[ch][subc][i]`, by `16384 * ch + 2048 * subc + i` (R35); default 0. -/
  regs : Bank Word
  surf : Surface
  clear : ClearState
  pix : PixelState
  va : VertexArrays
  /-- `pvtx`, 16 attributes (R42); default 0.0. -/
  pvtx : Bank Vec4
  prim : Prim
  xf : Transform
  vp : VProg
  /-- The four texture units (R47); default `TexUnit.init`. -/
  tex : Bank TexUnit
  cmb : Combiner
  irq : Irq
  /-- Every MMIO word that is plain storage, by its offset in the aperture (R58); default 0. -/
  mmio : Bank Word
  bus : Bus
deriving DecidableEq, Repr

/-- The parameters that `State.reset` takes: the spec's defaults (assumption logs 4, 5, 7, 11 and 38) and, where it gives none, the values
of assumption logs 2, 3 and 40. No statement rests on them but where it names this definition. -/
def Params.init : Params :=
  { physSize := 0x04000000, wEps := 0x3F000000, pbBase := [], kelvinClass := Config.kelvinClass, tables := .init, dxt35Mode := .four
    mmioBase := 0xFD000000, mmioMap := .init, irqBits := .init, enums := .init, aaYScale := aaYScaleInit, numerics := .init }

/-- The machine right after reset (R650): every element at the value 10_state.md gives it, memory with nothing listed. -/
def State.reset : State :=
  { par := .init
    objects := []
    agenda := []
    cur := 0
    hostData := 0
    chans := []
    subs := []
    regs := []
    surf := ⟨0, 0, 0, 0, 0, 0, 0, 0, 0, 0, 0, 0, 0, 0⟩
    clear := ⟨0, 0, 0, 0, 0, 0⟩
    pix := .init
    va := ⟨[], [], 0⟩
    pvtx := []
    prim := ⟨0, [], 0, 0, .flat⟩
    xf := ⟨[], [], [], [], .zero, .zero⟩
    vp := ⟨[], [], 0, 0, 0, 0, 0, 0, false, 0, [], [], []⟩
    tex := []
    cmb := ⟨0, [], 0, 0, 0, 0⟩
    irq := ⟨0, 0, 0, 0, 0, 0, 0, 0, 0, false, []⟩
    mmio := []
    bus := ⟨[], []⟩ }

end Sys2Proof.Machine
end

