-- ==== Sys2Proof/Machine/Ops.lean ====
section
/-! DEFINITION. The named operations over memory, channels and registers, the diagnostic record and the interrupt line. THE BLOCK TAKES NO
EXCEPTION (R600, R605: it has no vector, entry or return); what stands in the place of one is the interrupt output, raised by `updateIrq`
(R604), and the two waits of a channel, entered by `suspend` (R172) and left by `resumeAll` (R606, R607). -/

namespace Sys2Proof.Machine
open Sys2Proof

/-- The outcome of a meaning. -/
abbrev Run := Host.Outcome State Fault Refusal

/-- A result, or the refusal that stops the run, as the outcome of a step. -/
def Run.ofExcept (r : Except Refusal State) : Run :=
  match r with
  | .ok s => .next s
  | .error e => .refused e

/-- Go on from a next state. -/
def Run.andThen (r : Run) (f : State → Run) : Run :=
  match r with
  | .next s => f s
  | .fault e => .fault e
  | .refused e => .refused e

/-! ### Fields of data words -/

/-- Bits 15:0. -/
def lo16 (d : Word) : BitVec 16 := d.extractLsb' 0 16

/-- Bits 31:16. -/
def hi16 (d : Word) : BitVec 16 := d.extractLsb' 16 16

/-- Byte `n` of a word, byte 0 the lowest. -/
def byteOf (d : Word) (n : Nat) : BitVec 8 := d.extractLsb' (8 * n) 8

/-- Bit `n` of a word. -/
def bitOf (d : Word) (n : Nat) : Bool := d.getLsbD n

/-! ### Vectors -/

/-- Component 0..3 of a vector (R14). -/
def Vec4.get (v : Vec4) (k : BitVec 2) : Word :=
  match k with
  | 0 => v.x
  | 1 => v.y
  | 2 => v.z
  | _ => v.w

/-- The vector with component 0..3 set (R14). -/
def Vec4.set (v : Vec4) (k : BitVec 2) (x : Word) : Vec4 :=
  match k with
  | 0 => { v with x := x }
  | 1 => { v with y := x }
  | 2 => { v with z := x }
  | _ => { v with w := x }

/-! ### Diagnostics -/

/-- On whose behalf the pipeline works: the size of physical memory, the channel whose word is processed and its `GET` (R84, R620). -/
structure Who where
  size : Nat
  ch : BitVec 5
  get : Word
deriving DecidableEq, Repr

/-- `raise Diag(kind)` (R620): appends to the log and changes nothing else. -/
def raise (q : Who) (k : DiagKind) (b : Bus) : Bus := { b with diag := b.diag ++ [⟨k, q.ch, q.get⟩] }

/-! ### Physical memory -/

/-- What a byte of memory that is not listed reads as: assumption log 1. -/
def unlistedByte : Byte := 0

/-- The canonical form of memory: addresses strictly rising, no entry equal to what an unlisted byte reads as. -/
def Memory.wf (m : Memory) : Bool := bankWf unlistedByte m

/-- The byte at an address of memory, in or out of range. -/
def memByte (m : Memory) (a : Word) : Byte := bankGet unlistedByte m a.toNat

/-- Read one byte (R84): 0 and a diagnostic at or above `PHYS_SIZE`. -/
def readByte (q : Who) (a : Word) (b : Bus) : Byte × Bus :=
  if a.toNat < q.size then (memByte b.mem a, b) else (0, raise q .oorRead b)

/-- Write one byte (R84): dropped with a diagnostic at or above `PHYS_SIZE`. -/
def writeByte (q : Who) (a : Word) (v : Byte) (b : Bus) : Bus :=
  if a.toNat < q.size then { b with mem := bankSet unlistedByte b.mem a.toNat v } else raise q .oorWrite b

/-- `MemRead(addr, n)` (R13, R83): `n` bytes as an unsigned little-endian integer, each byte checked alone. -/
def memRead (q : Who) (n : Nat) (a : Word) (b : Bus) : Nat × Bus :=
  match n with
  | 0 => (0, b)
  | n + 1 =>
    let first := readByte q a b
    let rest := memRead q n (a + 1) first.2
    (first.1.toNat + 256 * rest.1, rest.2)

/-- `MemWrite(addr, n, v)` (R13, R83): the low `n` bytes of `v`, little-endian, each byte checked alone. -/
def memWrite (q : Who) (n : Nat) (a : Word) (v : Nat) (b : Bus) : Bus :=
  match n with
  | 0 => b
  | n + 1 => memWrite q n (a + 1) (v / 256) (writeByte q a (BitVec.ofNat 8 v) b)

/-- A read of at most four bytes as a word. -/
def memReadWord (q : Who) (n : Nat) (a : Word) (b : Bus) : Word × Bus :=
  let r := memRead q n a b
  (BitVec.ofNat 32 r.1, r.2)

/-! ### Channels and subchannels -/

/-- Channel `ch` (R32 to R34). -/
def chanAt (s : State) (ch : BitVec 5) : Channel := bankGet .init s.chans ch.toNat

/-- The state with channel `ch` set. -/
def State.setChan (s : State) (ch : BitVec 5) (c : Channel) : State :=
  { s with chans := bankSet .init s.chans ch.toNat c }

/-- The channel whose word is being processed. -/
def curChan (s : State) : Channel := chanAt s s.cur

/-- The current channel replaced. -/
def State.setCur (s : State) (c : Channel) : State := s.setChan s.cur c

/-- The current channel's `GET` replaced (R161 and its like). -/
def State.setGet (s : State) (g : Word) : State := s.setCur { curChan s with get := g }

/-- The current channel's burst replaced. -/
def State.setBurst (s : State) (b : Burst) : State := s.setCur { curChan s with burst := b }

/-- The one who reads and writes while a word of the current channel is processed. -/
def who (s : State) : Who := ⟨s.par.physSize, s.cur, (curChan s).get⟩

/-- `raise Diag(kind)` on a state. -/
def State.raise (s : State) (k : DiagKind) : State := { s with bus := Machine.raise (who s) k s.bus }

/-- The index of subchannel `subc` of channel `ch`. -/
def subIndex (ch : BitVec 5) (subc : BitVec 3) : Nat := 8 * ch.toNat + subc.toNat

/-- `objhandle`, `objclass` of a subchannel (R35). -/
def subAt (s : State) (ch : BitVec 5) (subc : BitVec 3) : Subchannel := bankGet .none s.subs (subIndex ch subc)

/-- The index of `regs[ch][subc][m]`. -/
def regIndex (ch : BitVec 5) (subc : BitVec 3) (m : BitVec 11) : Nat := 16384 * ch.toNat + 2048 * subc.toNat + m.toNat

/-- `regs[ch][subc][m]` (R35). -/
def regAt (s : State) (ch : BitVec 5) (subc : BitVec 3) (m : BitVec 11) : Word := bankGet 0 s.regs (regIndex ch subc m)

/-- `regs[ch][subc][m] <- d` (R167). -/
def State.setReg (s : State) (ch : BitVec 5) (subc : BitVec 3) (m : BitVec 11) (d : Word) : State :=
  { s with regs := bankSet 0 s.regs (regIndex ch subc m) d }

/-- The index of a handle in the object table. -/
def objIndex (ch : BitVec 5) (handle : Word) : Nat := 2 ^ 32 * ch.toNat + handle.toNat

/-- `ObjectLookup(ch, handle)` (R88). -/
def objectLookup (s : State) (ch : BitVec 5) (handle : Word) : Option ObjInfo :=
  bankGet none s.objects (objIndex ch handle)

/-- The base of the channel's command ring (R99). -/
def pbBase (s : State) (ch : BitVec 5) : Word := bankGet 0 s.par.pbBase ch.toNat

/-! ### Suspension and the interrupt line -/

/-- `suspend(ch, reason)` on the current channel (R172). -/
def State.suspend (s : State) (r : Wait) : State := s.setCur { curChan s with pstate := .susp r }

/-- One channel set to RUN if it waits for `r`. -/
def resumeOne (r : Wait) (cs : Bank Channel) (ch : Nat) : Bank Channel :=
  let c := bankGet .init cs ch
  if c.pstate = .susp r then bankSet .init cs ch { c with pstate := .run } else cs

/-- Every channel that waits for `r` is set to RUN (R606, R607). -/
def resumeAll (r : Wait) (cs : Bank Channel) : Bank Channel := (List.range 32).foldl (resumeOne r) cs

/-- A bit at a position. -/
def bitAt (b : Bool) (n : Nat) : Word := if b then 1#32 <<< n else 0

/-- The two bits of `PMC.intr` that `update_irq` computes. -/
def pmcMirrorMask (k : IrqBits) : Word := bitAt true k.pgraph.toNat ||| bitAt true k.pcrtc.toNat

/-- `update_irq()` (R604): the mirror bits, the level and, where the level changes, the callback. -/
def updateIrq (k : IrqBits) (r : Irq) : Irq :=
  let pg := (r.pgraphIntr &&& r.pgraphEnable) != 0
  let cr := (r.pcrtcIntr &&& r.pcrtcEnable) != 0
  let pmc := (r.pmcIntr &&& ~~~(pmcMirrorMask k)) ||| bitAt pg k.pgraph.toNat ||| bitAt cr k.pcrtc.toNat
  let level := (pmc &&& r.pmcEnable) != 0
  { r with
    pmcIntr := pmc
    line := level
    callbacks := if level = r.line then r.callbacks else r.callbacks ++ [level] }

/-- The interrupt registers are changed by `f` and the line is recomputed (R604). -/
def State.withIrq (s : State) (f : Irq → Irq) : State := { s with irq := updateIrq s.par.irqBits (f s.irq) }

end Sys2Proof.Machine
end

