-- ==== Sys2Proof/Machine/Agents.lean ====
section
/-! DEFINITION. The agents beside the puller (R16): the vblank source (R606), the host bus master's MMIO accesses (R86, R87, R610 to R613) and
its writes of physical memory (R614), and the host's change of the object table (R88, R652). -/

namespace Sys2Proof.Machine
open Sys2Proof

/-- `vblank()` (R606). -/
def vblankEvent (s : State) : State :=
  { s.withIrq fun r => { r with pcrtcIntr := r.pcrtcIntr ||| 1 } with chans := resumeAll .vblank s.chans }

/-! ### MMIO -/

/-- What an MMIO offset names (R610, R87); every other word is plain storage (R58). -/
inductive MmioReg where
  | pmcIntr
  | pmcEnable
  | pgraphIntr
  | notifySrc
  | notifyData
  | pgraphEnable
  | pcrtcIntr
  | pcrtcEnable
  | pcrtcStart
  | dmaPut (ch : BitVec 5)
  | dmaGet (ch : BitVec 5)
  | plain
deriving DecidableEq, Repr

/-- The offset lies in the channel register window (R87). -/
def inChannelWindow (off : Word) : Bool := off.extractLsb' 21 11 = 4

/-- The channel an offset of the window selects (R87). -/
def windowChannel (off : Word) : BitVec 5 := off.extractLsb' 16 5

/-- The register that an offset names by `MMIO_MAP` (R610). A map that gives one offset to two registers names the first in the order of
R610's table: assumption log 41. -/
def mmioReg (m : MmioMap) (off : Word) : MmioReg :=
  if off = m.pmcIntr then .pmcIntr
  else if off = m.pmcEnable then .pmcEnable
  else if off = m.pgraphIntr then .pgraphIntr
  else if off = m.notifySrc then .notifySrc
  else if off = m.notifyData then .notifyData
  else if off = m.pgraphEnable then .pgraphEnable
  else if off = m.pcrtcIntr then .pcrtcIntr
  else if off = m.pcrtcEnable then .pcrtcEnable
  else if off = m.pcrtcStart then .pcrtcStart
  else if inChannelWindow off && lo16 off = m.dmaPut then .dmaPut (windowChannel off)
  else if inChannelWindow off && lo16 off = m.dmaGet then .dmaGet (windowChannel off)
  else .plain

/-- The offset in the aperture of a bus address (R86). The aperture's size is not given, so every address has one, modulo 2^32: assumption
log 27. -/
def mmioOffset (s : State) (addr : Word) : Word := addr - s.par.mmioBase

/-- PGRAPH-idle resume (R607): where the notify bit is clear, every channel that waits for it runs again. -/
def resumeIdle (s : State) : State :=
  if s.irq.pgraphIntr &&& s.par.irqBits.notify = 0 then { s with chans := resumeAll .pgraphIdle s.chans } else s

/-- A host write of an aligned word (R610 to R613). -/
def mmioStore (off : Word) (v : Word) (s : State) : State :=
  match mmioReg s.par.mmioMap off with
  | .pmcIntr => s
  | .pmcEnable => s.withIrq fun r => { r with pmcEnable := v }
  | .pgraphIntr => resumeIdle (s.withIrq fun r => { r with pgraphIntr := r.pgraphIntr &&& ~~~v })
  | .notifySrc => { s with irq := { s.irq with notifySrc := v } }
  | .notifyData => { s with irq := { s.irq with notifyData := v } }
  | .pgraphEnable => s.withIrq fun r => { r with pgraphEnable := v }
  | .pcrtcIntr => s.withIrq fun r => { r with pcrtcIntr := r.pcrtcIntr &&& ~~~v }
  | .pcrtcEnable => s.withIrq fun r => { r with pcrtcEnable := v }
  | .pcrtcStart => { s with irq := { s.irq with displayed := v } }
  | .dmaPut ch => s.setChan ch { chanAt s ch with put := v }
  | .dmaGet ch => s.setChan ch { chanAt s ch with get := v }
  | .plain => { s with mmio := bankSet 0 s.mmio off.toNat v }

/-- The value a host read returns (R610, R612: no side effect). -/
def mmioValue (off : Word) (s : State) : Word :=
  match mmioReg s.par.mmioMap off with
  | .pmcIntr => s.irq.pmcIntr
  | .pmcEnable => s.irq.pmcEnable
  | .pgraphIntr => s.irq.pgraphIntr
  | .notifySrc => s.irq.notifySrc
  | .notifyData => s.irq.notifyData
  | .pgraphEnable => s.irq.pgraphEnable
  | .pcrtcIntr => s.irq.pcrtcIntr
  | .pcrtcEnable => s.irq.pcrtcEnable
  | .pcrtcStart => s.irq.displayed
  | .dmaPut ch => (chanAt s ch).put
  | .dmaGet ch => (chanAt s ch).get
  | .plain => bankGet 0 s.mmio off.toNat

/-- An MMIO access is an aligned 32-bit word of the aperture (R86); alignment is that of the offset (assumption log 27). -/
def mmioAligned (off : Word) (bytes : Nat) : Bool := decide (bytes = 4) && off.extractLsb' 0 2 = 0

/-- A host MMIO write to a bus address; any other width or alignment is refused (R86, R602). -/
def hostMmioWrite (addr : Word) (bytes : Nat) (v : Word) (s : State) : Run :=
  if mmioAligned (mmioOffset s addr) bytes then .next (mmioStore (mmioOffset s addr) v s) else .refused .mmioWidth

/-- A host MMIO read of a bus address; the value it returns is left in `hostData`. -/
def hostMmioRead (addr : Word) (bytes : Nat) (s : State) : Run :=
  if mmioAligned (mmioOffset s addr) bytes then .next { s with hostData := mmioValue (mmioOffset s addr) s } else .refused .mmioWidth

/-! ### Physical memory and objects -/

/-- Bytes the host writes from address `a` on; those at or above `PHYS_SIZE` are dropped (assumption log 28). A write that runs past
address 0xFFFFFFFF goes on at address 0, which R614 does not say: the model's choice, assumption log 39. -/
def hostWriteBytes (size : Nat) (a : Word) : List Byte → Memory → Memory
  | [], m => m
  | v :: rest, m => hostWriteBytes size (a + 1) rest (if a.toNat < size then bankSet unlistedByte m a.toNat v else m)

/-- A host write of physical memory (R614). -/
def hostMemWrite (a : Word) (data : List Byte) (s : State) : State :=
  { s with bus := { s.bus with mem := hostWriteBytes s.par.physSize a data s.bus.mem } }

/-- The host changes what `ObjectLookup` gives for a handle (R88, R652). -/
def hostPlaceObject (ch : BitVec 5) (handle : Word) (o : Option ObjInfo) (s : State) : State :=
  { s with objects := bankSet none s.objects (objIndex ch handle) o }

end Sys2Proof.Machine
end

