-- ==== Sys2Proof/Machine/CombinerMethods.lean ====
section
/-! DEFINITION. The combiner configuration methods (R470 to R476). -/

namespace Sys2Proof.Machine
open Sys2Proof

/-- Combiner stage `st` replaced by `f` of it (R48). -/
def State.updStage (s : State) (st : BitVec 3) (f : CmbStage → CmbStage) : State :=
  { s with cmb := { s.cmb with stage := bankSet .init s.cmb.stage st.toNat (f (bankGet .init s.cmb.stage st.toNat)) } }

/-- COMBINER_COLOR_ICW (R470). -/
def execCombinerColorIcw (stage : BitVec 3) (d : Word) (s : State) : Run :=
  .next (s.updStage stage fun c => { c with cicw := d })

/-- COMBINER_ALPHA_ICW (R470). -/
def execCombinerAlphaIcw (stage : BitVec 3) (d : Word) (s : State) : Run :=
  .next (s.updStage stage fun c => { c with aicw := d })

/-- COMBINER_COLOR_OCW (R471). -/
def execCombinerColorOcw (stage : BitVec 3) (d : Word) (s : State) : Run :=
  .next (s.updStage stage fun c => { c with cocw := d })

/-- COMBINER_ALPHA_OCW (R471). -/
def execCombinerAlphaOcw (stage : BitVec 3) (d : Word) (s : State) : Run :=
  .next (s.updStage stage fun c => { c with aocw := d })

/-- COMBINER_FACTOR0 (R472). -/
def execCombinerFactor0 (stage : BitVec 3) (d : Word) (s : State) : Run :=
  .next (s.updStage stage fun c => { c with fac0 := d })

/-- COMBINER_FACTOR1 (R472). -/
def execCombinerFactor1 (stage : BitVec 3) (d : Word) (s : State) : Run :=
  .next (s.updStage stage fun c => { c with fac1 := d })

/-- `min(d[7:0], 8)` (R473). -/
def stageCount (d : Word) : BitVec 4 := if (byteOf d 0).toNat ≤ 8 then d.extractLsb' 0 4 else 8

/-- COMBINER_CONTROL (R473). -/
def execCombinerControl (d : Word) (s : State) : Run :=
  let t := { s with cmb := { s.cmb with stages := stageCount d } }
  .next (if 8 < (byteOf d 0).toNat then t.raise .cmbStages else t)

/-- COMBINER_SPECULAR_FOG_CW0 (R474). -/
def execCombinerSpecularFogCw0 (d : Word) (s : State) : Run :=
  .next { s with cmb := { s.cmb with fcw0 := d } }

/-- COMBINER_SPECULAR_FOG_CW1 (R475). -/
def execCombinerSpecularFogCw1 (d : Word) (s : State) : Run :=
  .next { s with cmb := { s.cmb with fcw1 := d } }

/-- SPECULAR_FOG_FACTOR (R476). -/
def execSpecularFogFactor (k : BitVec 1) (d : Word) (s : State) : Run :=
  if k = 0 then .next { s with cmb := { s.cmb with ffac0 := d } } else .next { s with cmb := { s.cmb with ffac1 := d } }

end Sys2Proof.Machine
end

