-- ==== Sys2Proof/Machine/PixelMethods.lean ====
section
/-! DEFINITION. The pixel-state methods (R520 to R541). An enumerated field takes the whole word (R524). -/

namespace Sys2Proof.Machine
open Sys2Proof

/-- ALPHA_TEST_ENABLE (R520). -/
def execAlphaTestEnable (d : Word) (s : State) : Run :=
  .next { s with pix := { s.pix with alphaTestEn := bitOf d 0 } }

/-- BLEND_ENABLE (R521). -/
def execBlendEnable (d : Word) (s : State) : Run :=
  .next { s with pix := { s.pix with blendEn := bitOf d 0 } }

/-- DEPTH_TEST_ENABLE (R522). -/
def execDepthTestEnable (d : Word) (s : State) : Run :=
  .next { s with pix := { s.pix with depthTestEn := bitOf d 0 } }

/-- STENCIL_TEST_ENABLE (R523). -/
def execStencilTestEnable (d : Word) (s : State) : Run :=
  .next { s with pix := { s.pix with stencilTestEn := bitOf d 0 } }

/-- ALPHA_FUNC (R524). -/
def execAlphaFunc (d : Word) (s : State) : Run :=
  .next { s with pix := { s.pix with alphaFunc := d } }

/-- ALPHA_REF (R525). -/
def execAlphaRef (d : Word) (s : State) : Run :=
  .next { s with pix := { s.pix with alphaRef := byteOf d 0 } }

/-- BLEND_FUNC_SFACTOR (R526). -/
def execBlendFuncSfactor (d : Word) (s : State) : Run :=
  .next { s with pix := { s.pix with blendSfactor := d } }

/-- BLEND_FUNC_DFACTOR (R527). -/
def execBlendFuncDfactor (d : Word) (s : State) : Run :=
  .next { s with pix := { s.pix with blendDfactor := d } }

/-- BLEND_COLOR (R528). -/
def execBlendColor (d : Word) (s : State) : Run :=
  .next { s with pix := { s.pix with blendColor := d } }

/-- BLEND_EQUATION (R529). -/
def execBlendEquation (d : Word) (s : State) : Run :=
  .next { s with pix := { s.pix with blendEq := d } }

/-- DEPTH_FUNC (R530). -/
def execDepthFunc (d : Word) (s : State) : Run :=
  .next { s with pix := { s.pix with depthFunc := d } }

/-- COLOR_MASK (R531). -/
def execColorMask (d : Word) (s : State) : Run :=
  .next { s with pix := { s.pix with cmaskB := bitOf d 0, cmaskG := bitOf d 8, cmaskR := bitOf d 16, cmaskA := bitOf d 24 } }

/-- DEPTH_MASK (R532). -/
def execDepthMask (d : Word) (s : State) : Run :=
  .next { s with pix := { s.pix with depthWriteEn := bitOf d 0 } }

/-- STENCIL_MASK (R533). -/
def execStencilMask (d : Word) (s : State) : Run :=
  .next { s with pix := { s.pix with stencilWriteMask := byteOf d 0 } }

/-- STENCIL_FUNC (R534). -/
def execStencilFunc (d : Word) (s : State) : Run :=
  .next { s with pix := { s.pix with stencilFunc := d } }

/-- STENCIL_FUNC_REF (R535). -/
def execStencilFuncRef (d : Word) (s : State) : Run :=
  .next { s with pix := { s.pix with stencilRef := byteOf d 0 } }

/-- STENCIL_FUNC_MASK (R536). -/
def execStencilFuncMask (d : Word) (s : State) : Run :=
  .next { s with pix := { s.pix with stencilFuncMask := byteOf d 0 } }

/-- STENCIL_OP_FAIL (R537). -/
def execStencilOpFail (d : Word) (s : State) : Run :=
  .next { s with pix := { s.pix with stencilOpFail := d } }

/-- STENCIL_OP_ZFAIL (R538). -/
def execStencilOpZfail (d : Word) (s : State) : Run :=
  .next { s with pix := { s.pix with stencilOpZfail := d } }

/-- STENCIL_OP_ZPASS (R539). -/
def execStencilOpZpass (d : Word) (s : State) : Run :=
  .next { s with pix := { s.pix with stencilOpZpass := d } }

/-- LOGIC_OP_ENABLE (R540). -/
def execLogicOpEnable (d : Word) (s : State) : Run :=
  .next { s with pix := { s.pix with logicOpEn := bitOf d 0 } }

/-- LOGIC_OP (R541). -/
def execLogicOp (d : Word) (s : State) : Run :=
  .next { s with pix := { s.pix with logicOp := d } }

end Sys2Proof.Machine
end

