-- ==== Sys2Proof/Machine/Flags.lean ====
section
/-! DEFINITION. THE BLOCK HAS NO CONDITION CODES OR FLAGS (R50). What decides a test are the enumerations of R152 and the operations they name;
they stand here, each refusing a word outside its enumeration (R598). -/

namespace Sys2Proof.Machine
open Sys2Proof

/-- What a word names in its enumeration (R152); a word outside it is refused (R598). -/
def member {α : Type} (table : List (Word × α)) (w : Word) : Except Refusal α :=
  match table.lookup w with
  | some k => .ok k
  | none => .error (.badEnum w)

/-- A comparison of unsigned integers (R550). -/
def compareBy (k : CompareFn) (a b : Nat) : Bool :=
  match k with
  | .never => false
  | .less => decide (a < b)
  | .equal => decide (a = b)
  | .lequal => decide (a ≤ b)
  | .greater => decide (b < a)
  | .notequal => decide (a ≠ b)
  | .gequal => decide (b ≤ a)
  | .always => true

/-- `cmp(f, a, b)` (R550), by the comparison enumeration (R152). -/
def compare (e : Enums) (f : Word) (a b : Nat) : Except Refusal Bool := (member e.compare f).map fun k => compareBy k a b

/-- What a stencil operation makes of the stored stencil (R554). -/
def stencilBy (k : StencilFn) (ref st : BitVec 8) : BitVec 8 :=
  match k with
  | .zero => 0
  | .invert => ~~~st
  | .keep => st
  | .replace => ref
  | .incr => if st = 255 then 255 else st + 1
  | .decr => if st = 0 then 0 else st - 1
  | .incrWrap => st + 1
  | .decrWrap => st - 1

/-- What the stencil operation `op` makes of the stored stencil before the write mask (R554). -/
def stencilRaw (e : Enums) (op : Word) (ref st : BitVec 8) : Except Refusal (BitVec 8) :=
  (member e.stencil op).map fun k => stencilBy k ref st

/-- `sop(op, s)` (R554): merged through the stencil write mask. -/
def stencilOp (e : Enums) (p : PixelState) (op : Word) (st : BitVec 8) : Except Refusal (BitVec 8) :=
  (stencilRaw e op p.stencilRef st).map fun r => (st &&& ~~~p.stencilWriteMask) ||| (r &&& p.stencilWriteMask)

/-- The four channels of a blend: R, G, B are alike, alpha differs in SRC_ALPHA_SATURATE (R561). -/
inductive Chan where
  | r
  | g
  | b
  | a
deriving DecidableEq, Repr

/-- A channel of an ARGB8 word (R14). -/
def Chan.of (c : Chan) (argb : Word) : Nat :=
  match c with
  | .a => (byteOf argb 3).toNat
  | .r => (byteOf argb 2).toNat
  | .g => (byteOf argb 1).toNat
  | .b => (byteOf argb 0).toNat

/-- The blend factor of a channel (R561), 0..255. -/
def factorBy (k : FactorFn) (c : Chan) (src dst const : Word) : Nat :=
  match k with
  | .zero => 0
  | .one => 255
  | .srcColor => c.of src
  | .oneMinusSrcColor => 255 - c.of src
  | .srcAlpha => Chan.a.of src
  | .oneMinusSrcAlpha => 255 - Chan.a.of src
  | .dstAlpha => Chan.a.of dst
  | .oneMinusDstAlpha => 255 - Chan.a.of dst
  | .dstColor => c.of dst
  | .oneMinusDstColor => 255 - c.of dst
  | .srcAlphaSaturate => if c = .a then 255 else min (Chan.a.of src) (255 - Chan.a.of dst)
  | .constantColor => c.of const
  | .oneMinusConstantColor => 255 - c.of const
  | .constantAlpha => Chan.a.of const
  | .oneMinusConstantAlpha => 255 - Chan.a.of const

/-- `F(f, c)` (R561). -/
def blendFactor (e : Enums) (f : Word) (c : Chan) (src dst const : Word) : Except Refusal Nat :=
  (member e.factor f).map fun k => factorBy k c src dst const

/-- `(value * factor) div 255` (R560). -/
def scaled (value : Nat) (factor : Except Refusal Nat) : Except Refusal Nat := factor.map fun k => value * k / 255

/-- One channel of `blend(src, dst)` (R560). MIN and MAX do not look at the factors. -/
def blendChannel (e : Enums) (p : PixelState) (c : Chan) (src dst : Word) : Except Refusal Nat :=
  let sc := scaled (c.of src) (blendFactor e p.blendSfactor c src dst p.blendColor)
  let dc := scaled (c.of dst) (blendFactor e p.blendDfactor c src dst p.blendColor)
  (member e.equation p.blendEq).bind fun k =>
    match k with
    | .add => do return min ((← sc) + (← dc)) 255
    | .subtract => do return (← sc) - (← dc)
    | .reverseSubtract => do return (← dc) - (← sc)
    | .min => .ok (min (c.of src) (c.of dst))
    | .max => .ok (max (c.of src) (c.of dst))

/-- An ARGB8 word from its channels (R14, R395). -/
def pack8 (a r g b : BitVec 8) : Word := a ++ r ++ g ++ b

/-- `blend(src, dst)` (R560). -/
def blend (e : Enums) (p : PixelState) (src dst : Word) : Except Refusal Word := do
  let r ← blendChannel e p .r src dst
  let g ← blendChannel e p .g src dst
  let b ← blendChannel e p .b src dst
  let a ← blendChannel e p .a src dst
  return pack8 (BitVec.ofNat 8 a) (BitVec.ofNat 8 r) (BitVec.ofNat 8 g) (BitVec.ofNat 8 b)

/-- A logic operation on words (R570). -/
def logicBy (k : LogicFn) (s d : Word) : Word :=
  match k with
  | .clear => 0
  | .and => s &&& d
  | .andReverse => s &&& ~~~d
  | .copy => s
  | .andInverted => ~~~s &&& d
  | .noop => d
  | .xor => s ^^^ d
  | .or => s ||| d
  | .nor => ~~~(s ||| d)
  | .equiv => ~~~(s ^^^ d)
  | .invert => ~~~d
  | .orReverse => s ||| ~~~d
  | .copyInverted => ~~~s
  | .orInverted => ~~~s ||| d
  | .nand => ~~~(s &&& d)
  | .set => 0xFFFFFFFF

/-- `logic(op, s, d)` (R570). -/
def logicOp (e : Enums) (op : Word) (s d : Word) : Except Refusal Word := (member e.logic op).map fun k => logicBy k s d

end Sys2Proof.Machine
end

