-- ==== Sys2Proof/Machine/Surface.lean ====
section
/-! DEFINITION. The render target: dilation and addresses (R89, R90, R583), the clip rectangle (R586), colour and zeta formats (R211, R581,
R582, R585), and the clear (R210). -/

namespace Sys2Proof.Machine
open Sys2Proof

/-! ### Addressing -/

/-- Bits 0 to `b - 1` of `x`, bit `n` moved to bit `2n`. -/
def spread (x : Nat) : (b : Nat) → Nat
  | 0 => 0
  | n + 1 => spread x n + x / 2 ^ n % 2 * 4 ^ n

/-- `dilate0(x, b)` (R90). -/
def dilate0 (x b : Nat) : Nat := if b ≤ 15 then spread x b + x / 2 ^ b * 4 ^ b else Config.dilateBeyond false x b

/-- `dilate1(x, b)` (R90). -/
def dilate1 (x b : Nat) : Nat := if b ≤ 15 then 2 * spread x b + x / 2 ^ b * 4 ^ b else Config.dilateBeyond true x b

/-- The address of pixel (x, y) of a surface (R89), modulo 2^32. -/
def surfaceAddr (t : Surface) (base : Word) (pitch : BitVec 16) (bpp x y : Nat) : Word :=
  let d := min t.log2w.toNat t.log2h.toNat
  if t.layout = 1 then base + BitVec.ofNat 32 (y * pitch.toNat + x * bpp)
  else base + BitVec.ofNat 32 ((dilate0 x d + dilate1 y d) * bpp)

/-- `in_clip(x, y)` (R586). -/
def inClip (t : Surface) (x y : Nat) : Bool :=
  decide (t.clipX.toNat ≤ x) && decide (x < t.clipX.toNat + t.clipW.toNat) &&
    decide (t.clipY.toNat ≤ y) && decide (y < t.clipY.toNat + t.clipH.toNat)

/-- `AA_YSCALE` (R37) by its table; of a mode that the table does not list the value is open. -/
def aaYScale (table : List (BitVec 4 × Nat)) (aa : BitVec 4) : Nat := (table.lookup aa).getD (Config.aaYScaleOther aa)

/-- `size_rendertarget` (R37), derived and never stored. -/
def sizeRendertarget (s : State) : Nat := s.surf.colorPitch.toNat * (s.surf.clipH.toNat * aaYScale s.par.aaYScale s.surf.aa)

/-! ### Formats -/

/-- The layout is LINEAR or SWIZZLED (R585). -/
def layoutOk (t : Surface) : Bool := t.layout = 1 || t.layout = 2

/-- `color_ok` (R585). -/
def colorOk (t : Surface) : Bool :=
  (t.colorFmt = 3 || t.colorFmt = 4 || t.colorFmt = 5 || t.colorFmt = 8 || t.colorFmt = 9) && layoutOk t

/-- `zeta_ok` (R585). -/
def zetaOk (t : Surface) : Bool := (t.zetaFmt = 1 || t.zetaFmt = 2) && layoutOk t

/-- `bpp_c` (R583) of a supported colour format. -/
def colorBpp (fmt : BitVec 4) : Nat := if fmt = 3 then 2 else if fmt = 9 then 1 else 4

/-- `bpp_z` (R583) of a supported zeta format. -/
def zetaBpp (fmt : BitVec 4) : Nat := if fmt = 1 then 2 else 4

/-- `color_addr(x, y)` (R583). -/
def colorAddr (t : Surface) (x y : Nat) : Word := surfaceAddr t t.colorOffset t.colorPitch (colorBpp t.colorFmt) x y

/-- `zeta_addr(x, y)` (R583). -/
def zetaAddr (t : Surface) (x y : Nat) : Word := surfaceAddr t t.zetaOffset t.zetaPitch (zetaBpp t.zetaFmt) x y

/-- Channel expansion by bit replication (R435). -/
def expand1 (b : BitVec 1) : BitVec 8 := if b = 0 then 0 else 0xFF
def expand4 (b : BitVec 4) : BitVec 8 := b ++ b
def expand5 (b : BitVec 5) : BitVec 8 := b ++ b.extractLsb' 2 3
def expand6 (b : BitVec 6) : BitVec 8 := b ++ b.extractLsb' 4 2

/-- `unpack_color(old)` (R581) as ARGB8. -/
def unpackColor (fmt : BitVec 4) (old : Word) : Word :=
  if fmt = 3 then
    pack8 0xFF (expand5 (old.extractLsb' 11 5)) (expand6 (old.extractLsb' 5 6)) (expand5 (old.extractLsb' 0 5))
  else if fmt = 9 then 0xFF000000 ||| (old &&& 0xFF)
  else if fmt = 8 then old
  else old ||| 0xFF000000

/-- `pack_color(col)` (R582), truncating. -/
def packColor (fmt : BitVec 4) (col : Word) : Word :=
  if fmt = 3 then (0#16 ++ col.extractLsb' 19 5 ++ col.extractLsb' 10 6 ++ col.extractLsb' 3 5)
  else if fmt = 9 then col &&& 0xFF
  else if fmt = 4 then col &&& 0x00FFFFFF
  else if fmt = 5 then col ||| 0xFF000000
  else col

/-- A lane of a channel mask. -/
def lane (on : Bool) (m : Word) : Word := if on then m else 0

/-- `chanmask(fmt, R, G, B, A)` (R211). -/
def chanMask (fmt : BitVec 4) (r g b a : Bool) : Word :=
  if fmt = 3 then lane r 0xF800 ||| lane g 0x07E0 ||| lane b 0x001F
  else if fmt = 9 then lane b 0xFF
  else lane a 0xFF000000 ||| lane r 0x00FF0000 ||| lane g 0x0000FF00 ||| lane b 0x000000FF

/-- `(old & ~m) | (new & m)`. -/
def merge (old new m : Word) : Word := (old &&& ~~~m) ||| (new &&& m)

/-- `unpack_zeta(zw)` (R581): depth and stencil. -/
def unpackZeta (fmt : BitVec 4) (zw : Word) : Nat × BitVec 8 :=
  if fmt = 1 then ((zw.extractLsb' 0 16).toNat, 0) else ((zw.extractLsb' 8 24).toNat, zw.extractLsb' 0 8)

/-- The word that `write_zs(zv, sv)` writes (R550). -/
def packZeta (fmt : BitVec 4) (zv : Nat) (sv : BitVec 8) : Nat := if fmt = 1 then zv else zv * 256 + sv.toNat

/-! ### Counted loops -/

/-- `f start`, `f (start + 1)`, ... for `n` values, in order, over an accumulator. -/
def loopFrom {α : Type} (f : Nat → α → α) : (n start : Nat) → α → α
  | 0, _, b => b
  | n + 1, start, b => loopFrom f n (start + 1) (f start b)

/-- The same, stopping at the first refusal. -/
def loopM {α : Type} (f : Nat → α → Except Refusal α) : (n start : Nat) → α → Except Refusal α
  | 0, _, b => .ok b
  | n + 1, start, b =>
    match f start b with
    | .ok b' => loopM f n (start + 1) b'
    | .error e => .error e

/-! ### Clear (R210) -/

/-- The colour half of the clear of one pixel. -/
def clearColor (q : Who) (t : Surface) (p : PixelState) (value d : Word) (x y : Nat) (b : Bus) : Bus :=
  let n := colorBpp t.colorFmt
  let old := memReadWord q n (colorAddr t x y) b
  let m := chanMask t.colorFmt (bitOf d 4 && p.cmaskR) (bitOf d 5 && p.cmaskG) (bitOf d 6 && p.cmaskB) (bitOf d 7 && p.cmaskA)
  memWrite q n (colorAddr t x y) (merge old.1 (packColor t.colorFmt value) m).toNat old.2

/-- The zeta mask of the clear. -/
def clearZetaMask (t : Surface) (p : PixelState) (d : Word) : Word :=
  if t.zetaFmt = 1 then lane (bitOf d 0 && p.depthWriteEn) 0xFFFF
  else lane (bitOf d 0 && p.depthWriteEn) 0xFFFFFF00 ||| lane (bitOf d 1) (p.stencilWriteMask.setWidth 32)

/-- The zeta half of the clear of one pixel. -/
def clearZeta (q : Who) (t : Surface) (p : PixelState) (value d : Word) (x y : Nat) (b : Bus) : Bus :=
  let n := zetaBpp t.zetaFmt
  let old := memReadWord q n (zetaAddr t x y) b
  memWrite q n (zetaAddr t x y) (merge old.1 value (clearZetaMask t p d)).toNat old.2

/-- The clear selects a colour channel. -/
def clearsColor (d : Word) : Bool := d.extractLsb' 4 4 != 0

/-- The clear selects depth or stencil. -/
def clearsZeta (d : Word) : Bool := d.extractLsb' 0 2 != 0

/-- The clear of one pixel. -/
def clearPixel (q : Who) (t : Surface) (p : PixelState) (c : ClearState) (d : Word) (x y : Nat) (b : Bus) : Bus :=
  if inClip t x y then
    let b1 := if clearsColor d && colorOk t then clearColor q t p c.color d x y b else b
    if clearsZeta d && zetaOk t then clearZeta q t p c.zstencil d x y b1 else b1
  else b

/-- CLEAR_SURFACE's fill: at most one diagnostic of each kind, then the inclusive rectangle row by row. -/
def clearSurface (q : Who) (t : Surface) (p : PixelState) (c : ClearState) (d : Word) (b : Bus) : Bus :=
  let b1 := if clearsColor d && !colorOk t then raise q .unsupportedSurface b else b
  let b2 := if clearsZeta d && !zetaOk t then raise q .noZeta b1 else b1
  loopFrom (fun y => loopFrom (fun x => clearPixel q t p c d x y) (c.x1.toNat + 1 - c.x0.toNat) c.x0.toNat)
    (c.y1.toNat + 1 - c.y0.toNat) c.y0.toNat b2

end Sys2Proof.Machine
end

