-- ==== Sys2Proof/Machine/Float32.lean ====
section
/-! DEFINITION. IEEE-754 binary32 on 32-bit patterns (D2): round to nearest even, subnormals kept, each operation rounded once. A finite
value is its integer multiple of 2^-149, so every operation is exact integer arithmetic and one rounding of a quotient. A NaN that an
operation makes is quiet, and its sign and payload are a free value (assumption log 10). -/

namespace Sys2Proof.Machine
open Sys2Proof

def fOne : Word := 0x3F800000
def fHalf : Word := 0x3F000000
def fMinusHalf : Word := 0xBF000000
def fTwo : Word := 0x40000000
def fFour : Word := 0x40800000
def fMinusOne : Word := 0xBF800000
def fPosInf : Word := 0x7F800000
def fNegInf : Word := 0xFF800000

/-- The sign bit. -/
def fSign (x : Word) : Bool := decide (2 ^ 31 ≤ x.toNat)

/-- The pattern without its sign. -/
def fAbsNat (x : Word) : Nat := x.toNat % 2 ^ 31

def fIsNaN (x : Word) : Bool := decide (0x7F800000 < fAbsNat x)
def fIsInf (x : Word) : Bool := decide (fAbsNat x = 0x7F800000)
def fIsFinite (x : Word) : Bool := decide (fAbsNat x < 0x7F800000)
def fIsZero (x : Word) : Bool := decide (fAbsNat x = 0)

/-- The magnitude of a finite value as a multiple of 2^-149. -/
def fMag (x : Word) : Nat :=
  let e := fAbsNat x / 2 ^ 23
  let m := fAbsNat x % 2 ^ 23
  if e = 0 then m else (2 ^ 23 + m) * 2 ^ (e - 1)

/-- A finite value as a multiple of 2^-149. -/
def fFix (x : Word) : Int := if fSign x then -(fMag x : Int) else (fMag x : Int)

/-- The pattern of a sign and a magnitude pattern. -/
def fPack (neg : Bool) (mag : Nat) : Word := BitVec.ofNat 32 (if neg then 2 ^ 31 + mag else mag)

def fZero (neg : Bool) : Word := fPack neg 0
def fInf (neg : Bool) : Word := fPack neg 0x7F800000

/-- A NaN made by `operation` on the operands: exponent all ones, quiet bit 1, sign and payload free. -/
def fNaN (operation : Nat) (x y : Word) : Word :=
  let p := Config.nanPayload operation x y
  p.extractLsb' 22 1 ++ 0xFF#8 ++ 1#1 ++ p.extractLsb' 0 22

/-- Flip the sign, of zeros and NaNs too (R307). -/
def fNeg (x : Word) : Word := x ^^^ 0x80000000

def fAbs (x : Word) : Word := x &&& 0x7FFFFFFF

/-- `den * 2^e ≤ num`. -/
def ratReaches (num den : Nat) (e : Int) : Bool :=
  if 0 ≤ e then decide (den * 2 ^ e.toNat ≤ num) else decide (den ≤ num * 2 ^ (-e).toNat)

/-- `floor (log2 (num / den))` for positive `num` and `den`. -/
def ratExp (num den : Nat) : Int :=
  let e := (Nat.log2 num : Int) - (Nat.log2 den : Int)
  if ratReaches num den e then e else e - 1

/-- The quotient and divisor that give `num / den` as a multiple of `2^q`. -/
def ratScale (num den : Nat) (q : Int) : Nat × Nat :=
  if 0 ≤ q then (num, den * 2 ^ q.toNat) else (num * 2 ^ (-q).toNat, den)

/-- `n / d` rounded to the nearest integer, ties to even. -/
def divNearest (n d : Nat) : Nat :=
  let q := n / d
  let r := n % d
  if 2 * r > d ∨ (2 * r = d ∧ q % 2 = 1) then q + 1 else q

/-- The pattern of the magnitude `num / den`, its mantissa made by `round` (nearest or truncated division); a value past the largest
finite one becomes `top`. -/
def ratPattern (round : Nat → Nat → Nat) (top : Nat) (num den : Nat) : Nat :=
  if num = 0 then 0
  else
    let e := max (ratExp num den) (-126)
    let s := ratScale num den (e - 23)
    let bits := (e + 126).toNat * 2 ^ 23 + round s.1 s.2
    if 0x7F800000 ≤ bits then top else bits

/-- The value `±num / den` rounded to nearest even. -/
def fRound (neg : Bool) (num den : Nat) : Word := fPack neg (ratPattern divNearest 0x7F800000 num den)

/-- The value `±num / den` rounded toward zero. -/
def fTruncRat (neg : Bool) (num den : Nat) : Word := fPack neg (ratPattern (· / ·) 0x7F7FFFFF num den)

/-- A signed quotient rounded to nearest even; zero is +0. -/
def fRoundInt (num : Int) (den : Nat) : Word := fRound (decide (num < 0)) num.natAbs den

/-- An integer as binary32. -/
def fOfInt (n : Int) : Word := fRoundInt n 1

def fAdd (x y : Word) : Word :=
  if fIsNaN x || fIsNaN y then fNaN 0 x y
  else if fIsInf x then (if fIsInf y && fSign x != fSign y then fNaN 0 x y else x)
  else if fIsInf y then y
  else
    let sum := fFix x + fFix y
    if sum = 0 then fZero (fSign x && fSign y) else fRoundInt sum (2 ^ 149)

def fSub (x y : Word) : Word := fAdd x (fNeg y)

def fMul (x y : Word) : Word :=
  let neg := fSign x != fSign y
  if fIsNaN x || fIsNaN y then fNaN 1 x y
  else if fIsInf x || fIsInf y then (if fIsZero x || fIsZero y then fNaN 1 x y else fInf neg)
  else fRound neg (fMag x * fMag y) (2 ^ 298)

def fDiv (x y : Word) : Word :=
  let neg := fSign x != fSign y
  if fIsNaN x || fIsNaN y then fNaN 2 x y
  else if fIsInf x then (if fIsInf y then fNaN 2 x y else fInf neg)
  else if fIsInf y then fZero neg
  else if fIsZero y then (if fIsZero x then fNaN 2 x y else fInf neg)
  else fRound neg (fMag x) (fMag y)

/-- The order of binary32 values that are no NaN. -/
def fKey (x : Word) : Int := if fSign x then -(fAbsNat x : Int) else (fAbsNat x : Int)

def fLt (x y : Word) : Bool := !fIsNaN x && !fIsNaN y && decide (fKey x < fKey y)
def fGe (x y : Word) : Bool := !fIsNaN x && !fIsNaN y && decide (fKey y ≤ fKey x)

/-- `(A < B) ? A : B` (R320). -/
def fMin (x y : Word) : Word := if fLt x y then x else y

/-- `(A >= B) ? A : B` (R321). -/
def fMax (x y : Word) : Word := if fGe x y then x else y

/-- The floor of a finite value, as an integer. -/
def fFloorInt (x : Word) : Int := fFix x / 2 ^ 149

/-- Floor to a signed 32-bit integer: 0 for NaN, saturated (R324, R430). -/
def fFloorSat (x : Word) : Int :=
  if fIsNaN x then 0
  else if fIsInf x then (if fSign x then -2 ^ 31 else 2 ^ 31 - 1)
  else max (-2 ^ 31) (min (2 ^ 31 - 1) (fFloorInt x))

/-- The floor of a finite value clamped to `0 .. hi`; 0 for NaN (R580). -/
def fFloorClamp (x : Word) (hi : Nat) : Nat :=
  if fIsNaN x then 0
  else if fIsInf x then (if fSign x then 0 else hi)
  else min hi (fFloorInt x).toNat

/-- `to8` (R494): `floor (clamp (f, 0, 1) * 255 + 0.5)` computed exactly; 0 for NaN. -/
def to8 (x : Word) : BitVec 8 :=
  if fIsNaN x || fSign x then 0
  else if fAbsNat x ≥ 0x3F800000 then 255
  else BitVec.ofNat 8 ((2 * 255 * fMag x + 2 ^ 149) / 2 ^ 150)

/-- `from8` (R494): `n / 255` rounded to binary32. -/
def from8 (n : BitVec 8) : Word := fRound false n.toNat 255

end Sys2Proof.Machine
end

