-- ==== Sys2Proof/Machine/Transcendental.lean ====
section
/-! DEFINITION. The square root and the numerics parameters of the scalar unit (D2, D20): `RCC_FN` (R333), `EXP2_TRUNC` (R335), `LOG2_FN`
(R336) and `POW` (R337), each its default but where the machine's list says otherwise. The irrational functions are computed in integers to far more bits than a binary32 result needs and
rounded once: assumption log 15. -/

namespace Sys2Proof.Machine
open Sys2Proof

/-! ### Integer square root -/

/-- Newton's iteration from above, while it falls. -/
def isqrtNewton (n : Nat) : (fuel x : Nat) → Nat
  | 0, x => x
  | fuel + 1, x =>
    let y := (x + n / x) / 2
    if x ≤ y then x else isqrtNewton n fuel y

/-- The largest root below `2^bits` above `r`, one bit at a time. -/
def isqrtBits (n : Nat) : (bits r : Nat) → Nat
  | 0, r => r
  | bits + 1, r => isqrtBits n bits (if (r + 2 ^ bits) * (r + 2 ^ bits) ≤ n then r + 2 ^ bits else r)

/-- `floor (sqrt n)`: Newton's value where it is the root, else the root found bit by bit. -/
def isqrt (n : Nat) : Nat :=
  let r := isqrtNewton n 64 (2 ^ (Nat.log2 n / 2 + 1))
  if r * r ≤ n ∧ n < (r + 1) * (r + 1) then r else isqrtBits n (Nat.log2 n / 2 + 1) 0

/-- The square root of a magnitude pattern, correctly rounded (R334). The root is taken to 64 bits below 2^-149; where it is not
exact, the half step above it stands for every value up to the next. -/
def fSqrtMag (x : Word) : Word :=
  let n := fMag x * 2 ^ 277
  let r := isqrt n
  fRound false (if r * r = n then 2 * r else 2 * r + 1) (2 ^ 214)

/-! ### Powers of two and binary logarithm in fixed point -/

/-- Bits of working precision of the mantissa functions. -/
def workBits : Nat := 320

/-- `2^f` for the fraction `f = frac / 2^bits` in [0, 1), as a multiple of `2^-workBits`, from the lowest fraction bit up:
`2^(0.b1 b2 ...) = sqrt (2^b1 * sqrt (2^b2 * ...))`. -/
def exp2Frac (frac : Nat) : (bits r : Nat) → Nat
  | 0, r => r
  | bits + 1, r =>
    let b := frac % 2
    exp2Frac (frac / 2) bits (if b = 0 ∧ r = 2 ^ workBits then r else isqrt (r * 2 ^ (workBits + b)))

/-- `2^(frac / 2^bits)` as a multiple of `2^-workBits`. -/
def exp2Mant (frac bits : Nat) : Nat := exp2Frac frac bits (2 ^ workBits)

/-- `bits` bits of `log2 m` for the mantissa `m / 2^workBits` in [1, 2), by squaring. -/
def log2Frac (m : Nat) : (bits acc : Nat) → Nat
  | 0, acc => acc
  | bits + 1, acc =>
    let q := m * m / 2 ^ workBits
    if 2 ^ (workBits + 1) ≤ q then log2Frac (q / 2) bits (2 * acc + 1) else log2Frac q bits (2 * acc)

/-- The exponent `floor (log2 t)` of a finite nonzero magnitude. -/
def fExponent (x : Word) : Int := (Nat.log2 (fMag x) : Int) - 149

/-- The mantissa `t / 2^e` in [1, 2) as binary32, exact. -/
def fMantissa (x : Word) : Word := fRound false (fMag x) (2 ^ Nat.log2 (fMag x))

/-- Bits of `log2` below the point that `fLog2` and `fPow` compute. -/
def logBits : Nat := 256

/-- `log2 t` of a finite nonzero magnitude as a multiple of `2^-logBits`, rounded down; exact when `t` is a power of two. -/
def log2Fix (x : Word) : Int :=
  let k := Nat.log2 (fMag x)
  let m := fMag x * 2 ^ workBits / 2 ^ k
  fExponent x * 2 ^ logBits + (log2Frac m logBits 0 : Int)

/-- The value is a power of two. -/
def fIsPow2 (x : Word) : Bool := decide (fMag x = 2 ^ Nat.log2 (fMag x))

/-- `2^n` as binary32: exact when representable, else infinity or zero (R335). -/
def fPow2 (n : Int) : Word :=
  if n > 127 then fPosInf
  else if n < -149 then fZero false
  else fRound false (2 ^ (n + 149).toNat) (2 ^ 149)

/-- The default of `EXP2_TRUNC` (R335) of a finite value: `2^s` rounded toward zero. -/
def fExp2Trunc (s : Word) : Word :=
  let n := fFloorInt s
  let frac := (fFix s % 2 ^ 149).toNat
  if n > 127 then 0x7F7FFFFF
  else if n < -149 then fZero false
  else fTruncRat false (exp2Mant frac 149 * 2 ^ (n + 149).toNat) (2 ^ (workBits + 149))

/-- The default of `LOG2_FN` (R336) of a finite nonzero magnitude: `log2 t` rounded to nearest even. -/
def fLog2 (x : Word) : Word :=
  if fIsPow2 x then fOfInt (fExponent x) else fRoundInt (2 * log2Fix x + 1) (2 ^ (logBits + 1))

/-! ### Reciprocal family -/

/-- RCP (R332). -/
def fRcp (s : Word) : Word := fDiv fOne s

/-- RSQ (R334): `1.0 / sqrt |s|`, the root and the quotient each rounded. -/
def fRsq (s : Word) : Word :=
  if fIsNaN s then fNaN 3 s s
  else if fIsInf s then fZero false
  else fDiv fOne (fSqrtMag s)

/-! ### Power -/

/-- The value is an integer. -/
def fIsInteger (y : Word) : Bool := fIsFinite y && decide (fMag y % 2 ^ 149 = 0)

/-- The value is an odd integer. -/
def fIsOdd (y : Word) : Bool := fIsInteger y && decide (fMag y / 2 ^ 149 % 2 = 1)

/-- The real power of a positive finite nonzero magnitude by a finite exponent, rounded to nearest even. The product `y * log2 x` is
formed exactly from `log2Fix`; a result within `2^-200` of a 26-bit value is that value, which catches every power that is exact or a
tie. -/
def fPowMag (neg : Bool) (x y : Word) : Word :=
  let v := fFix y * log2Fix x
  let n := v / 2 ^ (149 + logBits)
  let frac := (v % 2 ^ (149 + logBits)).toNat / 2 ^ (149 + logBits - 288)
  if n > 200 then fInf neg
  else if n < -200 then fZero neg
  else
    let m := exp2Mant frac 288
    let near := (m + 2 ^ (workBits - 26)) / 2 ^ (workBits - 25) * 2 ^ (workBits - 25)
    let dist := if m < near then near - m else m - near
    fRound neg ((if dist < 2 ^ (workBits - 200) then near else m) * 2 ^ (n + 200).toNat) (2 ^ (workBits + 200))

/-- The default of `POW` (R337): the correctly rounded real power with the special cases of IEEE `pow`. Where those meet the corner case that a negative
base with a non-integer power is NaN, a base of -inf or a power of either infinity, the model takes IEEE's: assumption log 36. -/
def fPow (x y : Word) : Word :=
  if fIsZero y || x == fOne then fOne
  else if fIsNaN x || fIsNaN y then fNaN 4 x y
  else if fIsInf y then
    if fAbsNat x = 0x3F800000 then fOne
    else if decide (0x3F800000 < fAbsNat x) != fSign y then fPosInf else fZero false
  else if fIsZero x then
    if fSign y then fInf (fSign x && fIsOdd y) else fZero (fSign x && fIsOdd y)
  else if fIsInf x then
    if fSign y then fZero (fSign x && fIsOdd y) else fInf (fSign x && fIsOdd y)
  else if fSign x && !fIsInteger y then fNaN 4 x y
  else fPowMag (fSign x && fIsOdd y) x y

/-! ### The parameters -/

/-- `RCC_FN` (R333, D20): by default the RCP function. -/
def rccFn (m : Numerics) (s : Word) : Word := (m.rcc.lookup s).getD (fRcp s)

/-- `EXP2_TRUNC` (R335) of a finite value. -/
def exp2Trunc (m : Numerics) (s : Word) : Word := (m.exp2.lookup s).getD (fExp2Trunc s)

/-- `LOG2_FN` (R336) of a finite nonzero magnitude. -/
def log2Fn (m : Numerics) (t : Word) : Word := (m.log2.lookup t).getD (fLog2 t)

/-- `POW` (R337). -/
def powFn (m : Numerics) (x y : Word) : Word := (m.pow.lookup (x, y)).getD (fPow x y)

end Sys2Proof.Machine
end

