-- ==== Sys2Proof/Machine/Operands.lean ====
section
/-! DEFINITION. Every operand form: the components of a vertex attribute in memory or in the inline buffer (R252 to R254, R265), and the
three operands of a vertex-program instruction (R307, R308). -/

namespace Sys2Proof.Machine
open Sys2Proof

/-! ### Vertex attributes -/

/-- A read of `n` bytes at a byte address: from memory, or from the inline buffer read as if it were memory (R265). -/
abbrev Reader := (a : Word) → (n : Nat) → Bus → Nat × Bus

/-- The reader of physical memory (R84). -/
def memReader (q : Who) : Reader := fun a n b => memRead q n a b

/-- Word `i` of the inline buffer: 64 words (R51), a free value past them (assumption log 14). -/
def ibufWord (va : VertexArrays) (i : Nat) : Word := if i < 64 then bankGet 0 va.ibuf i else Config.ibufBeyond i

/-- `n` bytes of the inline buffer from byte `a` on, little-endian. -/
def ibufBytes (va : VertexArrays) (a : Nat) : (n : Nat) → Nat
  | 0 => 0
  | n + 1 => (byteOf (ibufWord va (a / 4)) (a % 4)).toNat + 256 * ibufBytes va (a + 1) n

/-- The reader of the inline buffer (R265). -/
def ibufReader (va : VertexArrays) : Reader := fun a n b => (ibufBytes va a.toNat n, b)

/-- A signed 16-bit value (R252). -/
def sext16 (n : Nat) : Int := (BitVec.ofNat 16 n).toInt

/-- One component: read and converted if it is `present`, else its default (R252). -/
def component (present : Bool) (default : Word) (rd : Reader) (conv : Nat → Word) (a : Word) (n : Nat) (b : Bus) : Word × Bus :=
  if present then (conv (rd a n b).1, (rd a n b).2) else (default, b)

/-- The components of `width` bytes each at `a`, those below `size`; the others take (0, 0, 0, 1) (R252). -/
def components (rd : Reader) (conv : Nat → Word) (width : Nat) (size : BitVec 4) (a : Word) (b : Bus) : Vec4 × Bus :=
  let n := size.toNat
  let x := component (decide (0 < n)) 0 rd conv a width b
  let y := component (decide (1 < n)) 0 rd conv (a + BitVec.ofNat 32 width) width x.2
  let z := component (decide (2 < n)) 0 rd conv (a + BitVec.ofNat 32 (2 * width)) width y.2
  let w := component (decide (3 < n)) fOne rd conv (a + BitVec.ofNat 32 (3 * width)) width z.2
  (⟨x.1, y.1, z.1, w.1⟩, w.2)

/-- The vector with the defaults (0, 0, 0, 1) at and past `size` (R252). -/
def defaulted (size : BitVec 4) (v : Vec4) : Vec4 :=
  let n := size.toNat
  ⟨if 0 < n then v.x else 0, if 1 < n then v.y else 0, if 2 < n then v.z else 0, if 3 < n then v.w else fOne⟩

/-- A byte as a normalised component (R252). -/
def ubyteToFloat (n : Nat) : Word := from8 (BitVec.ofNat 8 n)

/-- UB_D3D (R252): four bytes stored B, G, R, A. -/
def fetchUbD3d (rd : Reader) (size : BitVec 4) (a : Word) (b : Bus) : Vec4 × Bus :=
  let b0 := rd a 1 b
  let b1 := rd (a + 1) 1 b0.2
  let b2 := rd (a + 2) 1 b1.2
  let b3 := rd (a + 3) 1 b2.2
  (defaulted size ⟨ubyteToFloat b2.1, ubyteToFloat b1.1, ubyteToFloat b0.1, ubyteToFloat b3.1⟩, b3.2)

/-- CMP (R252): one word, signed 11, 11 and 10 bits. -/
def fetchCmp (rd : Reader) (size : BitVec 4) (a : Word) (b : Bus) : Vec4 × Bus :=
  let r := rd a 4 b
  let w := BitVec.ofNat 32 r.1
  (defaulted size
    ⟨fRoundInt (w.extractLsb' 0 11).toInt 1023, fRoundInt (w.extractLsb' 11 11).toInt 1023,
      fRoundInt (w.extractLsb' 22 10).toInt 511, Config.cmpFourth w⟩, r.2)

/-- The type is one that R156 names. -/
def vtxTypeKnown (ty : BitVec 4) : Bool := ty = 0 || ty = 1 || ty = 2 || ty = 4 || ty = 5 || ty = 6

/-- `fetch_attr(i, a)` (R252). -/
def fetchAttr (q : Who) (rd : Reader) (slot : VaSlot) (a : Word) (b : Bus) : Vec4 × Bus :=
  if slot.type = 2 then components rd (BitVec.ofNat 32) 4 slot.size a b
  else if slot.type = 0 then fetchUbD3d rd slot.size a b
  else if slot.type = 4 then components rd ubyteToFloat 1 slot.size a b
  else if slot.type = 1 then components rd (fun n => fRoundInt (sext16 n) 32767) 2 slot.size a b
  else if slot.type = 5 then components rd (fun n => fOfInt (sext16 n)) 2 slot.size a b
  else if slot.type = 6 then fetchCmp rd slot.size a b
  else (.zero, raise q .unsupportedVtxType b)

/-- Slot `i` of the vertex arrays (R41). -/
def slotAt (va : VertexArrays) (i : Nat) : VaSlot := bankGet .init va.slots i

/-- `va_words[i]` (R253). -/
def vaWords (slot : VaSlot) : Nat :=
  if slot.size = 0 then 0
  else if slot.type = 0 ∨ slot.type = 4 ∨ slot.type = 6 then 1
  else if slot.type = 1 ∨ slot.type = 5 then (slot.size.toNat + 1) / 2
  else slot.size.toNat

/-- `va_cum[i]` (R251): the words of the slots below `i`. -/
def vaCum (va : VertexArrays) (i : Nat) : Nat := ((List.range i).map fun j => vaWords (slotAt va j)).sum

/-- The words of one inline vertex, `W` (R265). -/
def vaTotal (va : VertexArrays) : Nat := vaCum va 16

/-- One attribute of a vertex: fetched if its slot is enabled, else left as it is in `pvtx` (R254). -/
def fetchSlot (q : Who) (rd : Reader) (va : VertexArrays) (addr : Nat → Word) (i : Nat) (r : Bank Vec4 × Bus) : Bank Vec4 × Bus :=
  if (slotAt va i).size = 0 then r
  else
    let v := fetchAttr q rd (slotAt va i) (addr i) r.2
    (bankSet .zero r.1 i v.1, v.2)

/-- The 16 attributes of a vertex, slot 0 first; `addr` gives each slot's element address (R254, R265). -/
def fetchSlots (q : Who) (rd : Reader) (va : VertexArrays) (addr : Nat → Word) (pvtx : Bank Vec4) (b : Bus) : Bank Vec4 × Bus :=
  loopFrom (fetchSlot q rd va addr) 16 0 (pvtx, b)

/-- `fetch_vertex(n)` (R254). -/
def fetchVertex (q : Who) (va : VertexArrays) (pvtx : Bank Vec4) (n : Word) (b : Bus) : Bank Vec4 × Bus :=
  fetchSlots q (memReader q) va (fun i => (slotAt va i).offset + n * (slotAt va i).stride.setWidth 32) pvtx b

/-- The vertex held in the inline buffer (R265). -/
def inlineVertex (q : Who) (va : VertexArrays) (pvtx : Bank Vec4) (b : Bus) : Bank Vec4 × Bus :=
  fetchSlots q (ibufReader va) va (fun i => BitVec.ofNat 32 (4 * vaCum va i)) pvtx b

/-! ### Vertex-program operands -/

/-- Component selection (R131): x in bits 7:6, w in bits 1:0. -/
def swizzle (swz : BitVec 8) (v : Vec4) : Vec4 :=
  ⟨Vec4.get v (swz.extractLsb' 6 2), Vec4.get v (swz.extractLsb' 4 2), Vec4.get v (swz.extractLsb' 2 2), Vec4.get v (swz.extractLsb' 0 2)⟩

/-- The sign of every component flipped, if `neg` (R307). -/
def negated (neg : BitVec 1) (v : Vec4) : Vec4 := if neg = 1 then ⟨fNeg v.x, fNeg v.y, fNeg v.z, fNeg v.w⟩ else v

/-- `cidx_eff` (R308): the sum in unbounded integers, clamped to 0..191. -/
def cidxEff (f : VpFields) (a0x : Word) : Nat :=
  (max 0 (min 191 ((f.cidx.toNat : Int) + (if f.a0x = 1 then a0x.toInt else 0)))).toNat

/-- The register an operand names (R132, R307); kind 0 is refused (R340). -/
def operandReg (u : VProg) (f : VpFields) (o : VpOperand) : Except Refusal Vec4 :=
  if o.mux = 1 then .ok (bankGet .zero u.r o.reg.toNat)
  else if o.mux = 2 then .ok (bankGet .zero u.v f.vidx.toNat)
  else if o.mux = 3 then .ok (bankGet .zero u.vpc (cidxEff f u.a0x))
  else .error (.vpReserved u.ip)

/-- Operand assembly (R307). -/
def operand (u : VProg) (f : VpFields) (o : VpOperand) : Except Refusal Vec4 :=
  (operandReg u f o).map fun v => negated o.neg (swizzle o.swz v)

/-- An operand that the opcodes read; one they do not read is not decoded (R139). -/
def operandIf (reads : Bool) (u : VProg) (f : VpFields) (o : VpOperand) : Except Refusal Vec4 :=
  if reads then operand u f o else .ok .zero

end Sys2Proof.Machine
end

