-- ==== Sys2Proof/Machine/Texture.lean ====
section
/-! DEFINITION. The texture sampler (R430 to R450). It reads memory and raises diagnostics; it has no other side effect (R434). -/

namespace Sys2Proof.Machine
open Sys2Proof

/-! ### Derived fields (R47) -/

/-- `tex_rect`: the format is a linear rectangle format (R151). -/
def texRect (t : TexUnit) : Bool :=
  t.fmt = 0x10 || t.fmt = 0x11 || t.fmt = 0x12 || t.fmt = 0x1D || t.fmt = 0x1E

/-- `tex_w`. -/
def texW (t : TexUnit) : Nat := if texRect t then t.rw.toNat else 2 ^ t.log2u.toNat

/-- `tex_h`. -/
def texH (t : TexUnit) : Nat := if texRect t then t.rh.toNat else 2 ^ t.log2v.toNat

/-- `tex_dil`. -/
def texDil (t : TexUnit) : Nat := min t.log2u.toNat t.log2v.toNat

/-- The formats of R440 to R444 by what their texels hold, and the block formats (R446 to R448). -/
inductive TexKind where
  | a8r8g8b8
  | x8r8g8b8
  | r5g6b5
  | a1r5g5b5
  | a4r4g4b4
  | dxt1
  | dxt3
  | dxt5
  | unsupported
deriving DecidableEq, Repr

/-- The texture format codes (R151). -/
def texKind (fmt : BitVec 8) : TexKind :=
  if fmt = 0x06 ∨ fmt = 0x12 then .a8r8g8b8
  else if fmt = 0x07 ∨ fmt = 0x1E then .x8r8g8b8
  else if fmt = 0x05 ∨ fmt = 0x11 then .r5g6b5
  else if fmt = 0x02 ∨ fmt = 0x10 then .a1r5g5b5
  else if fmt = 0x04 ∨ fmt = 0x1D then .a4r4g4b4
  else if fmt = 0x0C then .dxt1
  else if fmt = 0x0E then .dxt3
  else if fmt = 0x0F then .dxt5
  else .unsupported

/-- Bytes per texel of an uncompressed format (R440 to R444). -/
def texBpp (k : TexKind) : Nat := if k = .a8r8g8b8 ∨ k = .x8r8g8b8 then 4 else 2

/-! ### Coordinates and addresses -/

/-- `tcoord(t, u, v)` (R430). -/
def tcoord (t : TexUnit) (u v : Word) : Int × Int :=
  if texRect t then (fFloorSat u, fFloorSat v)
  else (fFloorSat (fMul u (fOfInt (texW t : Int))), fFloorSat (fMul v (fOfInt (texH t : Int))))

/-- A coordinate wrapped into `0 .. n - 1` (R431, R433). -/
def wrapCoord (c : Int) (n : Nat) : Nat := (c % (n : Int)).toNat

/-- The texel address (R431: Morton order; R433: linear). -/
def texelAddr (t : TexUnit) (bpp x y : Nat) : Word :=
  if texRect t then t.offset + BitVec.ofNat 32 (y * t.pitch.toNat + x * bpp)
  else t.offset + BitVec.ofNat 32 ((dilate0 x (texDil t) + dilate1 y (texDil t)) * bpp)

/-- The block address of a compressed format (R432), modulo 2^32 as R431 and R433 have it of a texel address: R432 does not say so
(assumption log 37). -/
def blockAddr (t : TexUnit) (bsize x y : Nat) : Word :=
  t.offset + BitVec.ofNat 32 ((y / 4 * max 1 (texW t / 4) + x / 4) * bsize)

/-- The texel's position in its block (R432). -/
def blockPos (x y : Nat) : Nat := 4 * (y % 4) + x % 4

/-! ### Uncompressed texels -/

/-- The texel that the bytes of an uncompressed format hold, as ARGB8 (R440 to R444). -/
def decodeTexel (k : TexKind) (c : Word) : Word :=
  match k with
  | .a8r8g8b8 => c
  | .x8r8g8b8 => c ||| 0xFF000000
  | .r5g6b5 => pack8 0xFF (expand5 (c.extractLsb' 11 5)) (expand6 (c.extractLsb' 5 6)) (expand5 (c.extractLsb' 0 5))
  | .a1r5g5b5 =>
    pack8 (expand1 (c.extractLsb' 15 1)) (expand5 (c.extractLsb' 10 5)) (expand5 (c.extractLsb' 5 5)) (expand5 (c.extractLsb' 0 5))
  | .a4r4g4b4 =>
    pack8 (expand4 (c.extractLsb' 12 4)) (expand4 (c.extractLsb' 8 4)) (expand4 (c.extractLsb' 4 4)) (expand4 (c.extractLsb' 0 4))
  | .dxt1 | .dxt3 | .dxt5 | .unsupported => 0

/-! ### Block-compressed texels -/

/-- A 16-bit reference colour as R, G, B (R436). -/
def rgb565 (c : Nat) : BitVec 8 × BitVec 8 × BitVec 8 :=
  let w := BitVec.ofNat 16 c
  (expand5 (w.extractLsb' 11 5), expand6 (w.extractLsb' 5 6), expand5 (w.extractLsb' 0 5))

/-- One channel of palette entry `code` (R445). -/
def dxtChannel (four : Bool) (code : Nat) (x0 x1 : BitVec 8) : BitVec 8 :=
  if code = 0 then x0
  else if code = 1 then x1
  else if four then
    (if code = 2 then BitVec.ofNat 8 ((2 * x0.toNat + x1.toNat) / 3) else BitVec.ofNat 8 ((x0.toNat + 2 * x1.toNat) / 3))
  else if code = 2 then BitVec.ofNat 8 ((x0.toNat + x1.toNat) / 2)
  else 0

/-- The RGB of `dxt_palette(c0, c1, mode)[code]` with the given alpha (R445). -/
def dxtRgb (four : Bool) (alpha : BitVec 8) (c0 c1 code : Nat) : Word :=
  let x := rgb565 c0
  let y := rgb565 c1
  pack8 alpha (dxtChannel four code x.1 y.1) (dxtChannel four code x.2.1 y.2.1) (dxtChannel four code x.2.2 y.2.2)

/-- `dxt_palette(c0, c1, mode)[code]` with the given alpha; three-colour code 3 is transparent black (R445). -/
def dxtColor (four : Bool) (alpha : BitVec 8) (c0 c1 code : Nat) : Word :=
  if four = false ∧ code = 3 then 0 else dxtRgb four alpha c0 c1 code

/-- The colour part of a DXT3 or DXT5 block by `DXT35_COLOR_MODE`, with the alpha of the alpha part (R447). What the values other than
FOUR do is assumption log 38: three-colour code 3 is black with that alpha, and by order equal colours are that colour (R446). -/
def dxt35Texel (m : DxtColorMode) (alpha : BitVec 8) (c0 c1 code : Nat) : Word :=
  match m with
  | .four => dxtRgb true alpha c0 c1 code
  | .three => dxtRgb false alpha c0 c1 code
  | .byOrder => if c0 = c1 then dxtRgb true alpha c0 c0 0 else dxtRgb (decide (c1 < c0)) alpha c0 c1 code

/-- `c0`, `c1` and the 2-bit code of texel `i`, read at a colour part (R446); the addresses `b + 2` and `b + 4` are modulo 2^32
(assumption log 37). -/
def readColorPart (q : Who) (a : Word) (i : Nat) (b : Bus) : (Nat × Nat × Nat) × Bus :=
  let c0 := memRead q 2 a b
  let c1 := memRead q 2 (a + 2) c0.2
  let codes := memRead q 4 (a + 4) c1.2
  ((c0.1, c1.1, codes.1 / 4 ^ i % 4), codes.2)

/-- The texel of a DXT1 block (R446). -/
def dxt1Texel (c0 c1 code : Nat) : Word :=
  if c0 = c1 then dxtColor true 0xFF c0 c0 0 else dxtColor (decide (c1 < c0)) 0xFF c0 c1 code

/-- DXT1 (R446). -/
def sampleDxt1 (q : Who) (a : Word) (i : Nat) (b : Bus) : Word × Bus :=
  let r := readColorPart q a i b
  (dxt1Texel r.1.1 r.1.2.1 r.1.2.2, r.2)

/-- DXT3 by `DXT35_COLOR_MODE` (R447); the address `b + 8` is modulo 2^32 (assumption log 37). -/
def sampleDxt3 (q : Who) (m : DxtColorMode) (a : Word) (i : Nat) (b : Bus) : Word × Bus :=
  let al := memRead q 8 a b
  let r := readColorPart q (a + 8) i al.2
  (dxt35Texel m (expand4 (BitVec.ofNat 4 (al.1 / 16 ^ i))) r.1.1 r.1.2.1 r.1.2.2, r.2)

/-- Entry `j` of the alpha palette (R448). -/
def dxt5Alpha (a0 a1 j : Nat) : Nat :=
  if j = 0 then a0
  else if j = 1 then a1
  else if a1 < a0 then ((8 - j) * a0 + (j - 1) * a1) / 7
  else if j = 6 then 0
  else if j = 7 then 255
  else ((6 - j) * a0 + (j - 1) * a1) / 5

/-- DXT5 by `DXT35_COLOR_MODE` (R448, R447); the addresses `b + 1`, `b + 2` and `b + 8` are modulo 2^32 (assumption log 37). -/
def sampleDxt5 (q : Who) (m : DxtColorMode) (a : Word) (i : Nat) (b : Bus) : Word × Bus :=
  let a0 := memRead q 1 a b
  let a1 := memRead q 1 (a + 1) a0.2
  let idx := memRead q 6 (a + 2) a1.2
  let r := readColorPart q (a + 8) i idx.2
  (dxt35Texel m (BitVec.ofNat 8 (dxt5Alpha a0.1 a1.1 (idx.1 / 8 ^ i % 8))) r.1.1 r.1.2.1 r.1.2.2, r.2)

/-! ### Sampling -/

/-- The texel at wrapped coordinates of a supported format. -/
def sampleAt (q : Who) (m : DxtColorMode) (t : TexUnit) (x y : Nat) (b : Bus) : Word × Bus :=
  let k := texKind t.fmt
  if k = .dxt1 then sampleDxt1 q (blockAddr t 8 x y) (blockPos x y) b
  else if k = .dxt3 then sampleDxt3 q m (blockAddr t 16 x y) (blockPos x y) b
  else if k = .dxt5 then sampleDxt5 q m (blockAddr t 16 x y) (blockPos x y) b
  else
    let r := memReadWord q (texBpp k) (texelAddr t (texBpp k) x y) b
    (decodeTexel k r.1, r.2)

/-- `sample(t, (ui, vi))` (R431 to R434, R449). -/
def sample (q : Who) (m : DxtColorMode) (t : TexUnit) (c : Int × Int) (b : Bus) : Word × Bus :=
  if texKind t.fmt = .unsupported then (0, raise q .unsupportedTextureFormat b)
  else if texW t = 0 ∨ texH t = 0 then (0, raise q .emptyTexture b)
  else sampleAt q m t (wrapCoord c.1 (texW t)) (wrapCoord c.2 (texH t)) b

/-- Texture unit `t` (R47). -/
def texUnit (tex : Bank TexUnit) (t : Nat) : TexUnit := bankGet .init tex t

/-- `texel(t)` of a pixel (R395): 0 where the unit is disabled. -/
def texel (q : Who) (m : DxtColorMode) (tex : Bank TexUnit) (t : Nat) (u v : Word) (b : Bus) : Word × Bus :=
  if (texUnit tex t).enable then sample q m (texUnit tex t) (tcoord (texUnit tex t) u v) b else (0, b)

end Sys2Proof.Machine
end

