-- ==== Sys2Proof/Machine/Combiner.lean ====
section
/-! DEFINITION. The register combiner engine (R480 to R495). It holds no state: its registers (R49) live for one pixel, and it
only raises diagnostics. -/

namespace Sys2Proof.Machine
open Sys2Proof

/-- The scratch registers of one pixel (R49) and, in the final stage, sumclamp and E·F. `final` says that the stage at hand
is the final one and that codes 14 and 15 may be read. -/
structure CmbRegs where
  color0 : Vec4
  color1 : Vec4
  fog : Vec4
  primary : Vec4
  secondary : Vec4
  tex0 : Vec4
  tex1 : Vec4
  tex2 : Vec4
  tex3 : Vec4
  spare0 : Vec4
  spare1 : Vec4
  sumclamp : Vec4
  ef : Vec4
  final : Bool
deriving DecidableEq, Repr

/-- An RGB triplet. -/
structure Rgb where
  r : Word
  g : Word
  b : Word
deriving DecidableEq, Repr

/-- The triplet of a register (`.rgb`). -/
def rgbOf (v : Vec4) : Rgb := ⟨v.x, v.y, v.z⟩

/-- The register with its triplet replaced. -/
def withRgb (v : Vec4) (c : Rgb) : Vec4 := ⟨c.r, c.g, c.b, v.w⟩

/-- The register with its alpha replaced. -/
def withAlpha (v : Vec4) (a : Word) : Vec4 := { v with w := a }

/-- A function of each component. -/
def Rgb.map (f : Word → Word) (p : Rgb) : Rgb := ⟨f p.r, f p.g, f p.b⟩

/-- A function of each pair of components. -/
def Rgb.zip (f : Word → Word → Word) (p q : Rgb) : Rgb := ⟨f p.r q.r, f p.g q.g, f p.b q.b⟩

/-- `rep3(x)` (R485). -/
def rep3 (x : Word) : Rgb := ⟨x, x, x⟩

/-- `from8v(w)` (R480). -/
def from8v (w : Word) : Vec4 := ⟨from8 (byteOf w 2), from8 (byteOf w 1), from8 (byteOf w 0), from8 (byteOf w 3)⟩

/-- The registers at the start of a pixel (R480). -/
def cmbInit (primary : Vec4) (t0 t1 t2 t3 : Word) : CmbRegs :=
  { color0 := .zero, color1 := .zero, fog := .zero, primary := primary, secondary := .zero
    tex0 := from8v t0, tex1 := from8v t1, tex2 := from8v t2, tex3 := from8v t3
    spare0 := .zero, spare1 := .zero, sumclamp := .zero, ef := .zero, final := false }

/-- `reg(code)` (R481). -/
def cmbReg (g : CmbRegs) (code : BitVec 4) : Except Refusal Vec4 :=
  match code with
  | 0 => .ok .zero
  | 1 => .ok g.color0
  | 2 => .ok g.color1
  | 3 => .ok g.fog
  | 4 => .ok g.primary
  | 5 => .ok g.secondary
  | 8 => .ok g.tex0
  | 9 => .ok g.tex1
  | 10 => .ok g.tex2
  | 11 => .ok g.tex3
  | 12 => .ok g.spare0
  | 13 => .ok g.spare1
  | 14 => if g.final then .ok g.sumclamp else .error .cmbReserved
  | 15 => if g.final then .ok g.ef else .error .cmbReserved
  | _ => .error .cmbReserved

/-- `max(0, x)` (R483): 0 for a NaN. -/
def max0 (x : Word) : Word := if fLt 0 x then x else 0

/-- The mapping functions (R483). -/
def cmbMap (code : BitVec 3) (x : Word) : Word :=
  match code with
  | 0 => max0 x
  | 1 => fSub fOne (fMin (max0 x) fOne)
  | 2 => fSub (fMul fTwo (max0 x)) fOne
  | 3 => fAdd (fMul (fNeg fTwo) (max0 x)) fOne
  | 4 => fSub (max0 x) fHalf
  | 5 => fAdd (fNeg (max0 x)) fHalf
  | 6 => x
  | _ => fNeg x

/-- Byte `n` of an input-mapping word, A being byte 3 (R153). -/
def icwByte (w : Word) (n : Nat) : BitVec 8 := byteOf w n

/-- `input(byte, RGB)` (R482). -/
def cmbInputRgb (g : CmbRegs) (byte : BitVec 8) : Except Refusal Rgb :=
  (cmbReg g (byte.extractLsb' 0 4)).map fun v =>
    Rgb.map (cmbMap (byte.extractLsb' 5 3)) (if byte.getLsbD 4 then rep3 v.w else rgbOf v)

/-- `input(byte, ALPHA)` (R482). -/
def cmbInputAlpha (g : CmbRegs) (byte : BitVec 8) : Except Refusal Word :=
  (cmbReg g (byte.extractLsb' 0 4)).map fun v => cmbMap (byte.extractLsb' 5 3) (if byte.getLsbD 4 then v.w else v.z)

/-- The clamp of R486; a NaN becomes -1. -/
def clampSigned (x : Word) : Word := fMin (fMax x fMinusOne) fOne

/-- The bias of an output operation (R486). -/
def cmbBias (op : BitVec 3) : Word := if op = 1 ∨ op = 3 then fMinusHalf else 0

/-- The scale of an output operation (R486); 5 and 7 are reserved. -/
def cmbScale (op : BitVec 3) : Except Refusal Word :=
  match op with
  | 0 | 1 => .ok fOne
  | 2 | 3 => .ok fTwo
  | 4 => .ok fFour
  | 6 => .ok fHalf
  | _ => .error .cmbReserved

/-- The operation field of an output-mapping word (R154). -/
def ocwOp (ocw : Word) : BitVec 3 := ocw.extractLsb' 15 3

/-- `outmap` of one component at a given scale (R486). -/
def outmapAt (op : BitVec 3) (scale x : Word) : Word := clampSigned (fMul (fAdd x (cmbBias op)) scale)

/-- `A . B` (R485): left to right. -/
def dot3 (p q : Rgb) : Word := fAdd (fAdd (fMul p.r q.r) (fMul p.g q.g)) (fMul p.b q.b)

/-- The mux of R485 picks CD. -/
def muxPicksCd (g : CmbRegs) : Bool := fGe g.spare0.w fHalf

/-- What a portion of a stage computes: AB, CD and the sum or mux. -/
structure CmbOut (α : Type) where
  ab : α
  cd : α
  sm : α
deriving DecidableEq, Repr

/-- The RGB portion of a general stage (R485, R486). -/
def stageRgb (g : CmbRegs) (icw ocw : Word) : Except Refusal (CmbOut Rgb) := do
  let a ← cmbInputRgb g (icwByte icw 3)
  let b ← cmbInputRgb g (icwByte icw 2)
  let c ← cmbInputRgb g (icwByte icw 1)
  let d ← cmbInputRgb g (icwByte icw 0)
  let scale ← cmbScale (ocwOp ocw)
  let ab := if bitOf ocw 13 then rep3 (dot3 a b) else Rgb.zip fMul a b
  let cd := if bitOf ocw 12 then rep3 (dot3 c d) else Rgb.zip fMul c d
  let sm := if bitOf ocw 14 then (if muxPicksCd g then cd else ab) else Rgb.zip fAdd ab cd
  let out := Rgb.map (outmapAt (ocwOp ocw) scale)
  return ⟨out ab, out cd, out sm⟩

/-- The alpha portion of a general stage (R485, R486). -/
def stageAlpha (g : CmbRegs) (icw ocw : Word) : Except Refusal (CmbOut Word) := do
  let a ← cmbInputAlpha g (icwByte icw 3)
  let b ← cmbInputAlpha g (icwByte icw 2)
  let c ← cmbInputAlpha g (icwByte icw 1)
  let d ← cmbInputAlpha g (icwByte icw 0)
  let scale ← cmbScale (ocwOp ocw)
  let ab := fMul a b
  let cd := fMul c d
  let sm := if bitOf ocw 14 then (if muxPicksCd g then cd else ab) else fAdd ab cd
  let out := outmapAt (ocwOp ocw) scale
  return ⟨out ab, out cd, out sm⟩

/-- One result written to the register of a destination code (R487): 0 discards, a code that is not writable drops the write with a
diagnostic. `upd` replaces the portion of the register. -/
def cmbWrite (q : Who) (code : BitVec 4) (upd : Vec4 → Vec4) (r : CmbRegs × Bus) : CmbRegs × Bus :=
  let g := r.1
  match code with
  | 0 => r
  | 4 => ({ g with primary := upd g.primary }, r.2)
  | 5 => ({ g with secondary := upd g.secondary }, r.2)
  | 8 => ({ g with tex0 := upd g.tex0 }, r.2)
  | 9 => ({ g with tex1 := upd g.tex1 }, r.2)
  | 10 => ({ g with tex2 := upd g.tex2 }, r.2)
  | 11 => ({ g with tex3 := upd g.tex3 }, r.2)
  | 12 => ({ g with spare0 := upd g.spare0 }, r.2)
  | 13 => ({ g with spare1 := upd g.spare1 }, r.2)
  | _ => (g, raise q .cmbBadDest r.2)

/-- The three results of a portion, written in the order AB, CD, sum/mux (R487). -/
def cmbWrites {α : Type} (q : Who) (ocw : Word) (upd : α → Vec4 → Vec4) (o : CmbOut α) (r : CmbRegs × Bus) : CmbRegs × Bus :=
  let r1 := cmbWrite q (ocw.extractLsb' 4 4) (upd o.ab) r
  let r2 := cmbWrite q (ocw.extractLsb' 0 4) (upd o.cd) r1
  cmbWrite q (ocw.extractLsb' 8 4) (upd o.sm) r2

/-- One general stage (R485, R487): both portions from the registers at its start, then the writes. -/
def generalStage (q : Who) (st : CmbStage) (r : CmbRegs × Bus) : Except Refusal (CmbRegs × Bus) := do
  let g := { r.1 with color0 := from8v st.fac0, color1 := from8v st.fac1 }
  let rgb ← stageRgb g st.cicw st.cocw
  let al ← stageAlpha g st.aicw st.aocw
  return cmbWrites q st.aocw (fun a v => withAlpha v a) al (cmbWrites q st.cocw (fun c v => withRgb v c) rgb (g, r.2))

/-- Stage `s` of the configuration (R48). -/
def stageAt (c : Combiner) (s : Nat) : CmbStage := bankGet .init c.stage s

/-- `clamp01` (R488): 0 for a NaN. -/
def clamp01 (x : Word) : Word := fMin (max0 x) fOne

/-- `min(x, 1.0)` of R488: a NaN stays one. -/
def capOne (x : Word) : Word := if fLt fOne x then fOne else x

/-- One component of the final combiner's RGB: `min(A * B + (1 - A) * C + D, 1.0)`, left to right (R488). -/
def finalComponent (a b c d : Word) : Word := capOne (fAdd (fAdd (fMul a b) (fMul (fSub fOne a) c)) d)

/-- The registers that the final combiner's inputs see (R488): E and F may not read codes 14 and 15. -/
def finalRegs (c : Combiner) (g : CmbRegs) : CmbRegs :=
  { g with
    color0 := from8v c.ffac0
    color1 := from8v c.ffac1
    sumclamp := ⟨clamp01 (fAdd (max0 g.spare0.x) (max0 g.secondary.x)), clamp01 (fAdd (max0 g.spare0.y) (max0 g.secondary.y)),
      clamp01 (fAdd (max0 g.spare0.z) (max0 g.secondary.z)), 0⟩ }

/-- The final combiner (R488). -/
def finalStage (c : Combiner) (g : CmbRegs) : Except Refusal Vec4 := do
  let h := finalRegs c g
  let e ← cmbInputRgb h (icwByte c.fcw1 3)
  let f ← cmbInputRgb h (icwByte c.fcw1 2)
  let ef := Rgb.zip fMul e f
  let k := { h with ef := ⟨ef.r, ef.g, ef.b, 0⟩, final := true }
  let a ← cmbInputRgb k (icwByte c.fcw0 3)
  let b ← cmbInputRgb k (icwByte c.fcw0 2)
  let cc ← cmbInputRgb k (icwByte c.fcw0 1)
  let d ← cmbInputRgb k (icwByte c.fcw0 0)
  let al ← cmbInputAlpha k (icwByte c.fcw1 1)
  return ⟨finalComponent a.r b.r cc.r d.r, finalComponent a.g b.g cc.g d.g, finalComponent a.b b.b cc.b d.b, al⟩

/-- A colour as ARGB8 (R395, R490). -/
def packColorFloat (r g b a : Word) : Word := pack8 (to8 a) (to8 r) (to8 g) (to8 b)

/-- `combine(r, g, b, a, tx)` (R490). -/
def combine (q : Who) (c : Combiner) (primary : Vec4) (t0 t1 t2 t3 : Word) (b : Bus) : Except Refusal (Word × Bus) := do
  let r ← loopM (fun s r => generalStage q (stageAt c s) r) c.stages.toNat 0 (cmbInit primary t0 t1 t2 t3, b)
  let out ← finalStage c r.1
  return (packColorFloat out.x out.y out.z out.w, r.2)

end Sys2Proof.Machine
end

