-- ==== Sys2Proof/Machine/Pixel.lean ====
section
/-! DEFINITION. The per-pixel output stage (R550 to R555, R580 to R586). It changes memory and the diagnostic log only. -/

namespace Sys2Proof.Machine
open Sys2Proof

/-- What the rasterizer and the pixel stage read while a vertex is drawn (R660: everything but `rsel` is read when used). -/
structure Draw where
  who : Who
  surf : Surface
  pix : PixelState
  tex : Bank TexUnit
  cmb : Combiner
  wEps : Word
  /-- `(ox, oy, oz)` of R381 in its first three components. -/
  off : Vec4
  /-- `DXT35_COLOR_MODE` (R447). -/
  dxt35Mode : DxtColorMode
  /-- `ENUMS` (R152). -/
  enums : Enums
deriving DecidableEq, Repr

/-- `depth_of(z)` (R580). -/
def depthOf (zetaFmt : BitVec 4) (z : Word) : Nat := fFloorClamp z (if zetaFmt = 1 then 0xFFFF else 0xFFFFFF)

/-- The zeta buffer is in use: `zt` (R550). -/
def zetaUsed (t : Surface) (p : PixelState) : Bool := zetaOk t && (p.depthTestEn || p.stencilTestEn)

/-- `write_zs(zv, sv)` (R550). -/
def writeZs (d : Draw) (x y zv : Nat) (sv : BitVec 8) (b : Bus) : Bus :=
  memWrite d.who (zetaBpp d.surf.zetaFmt) (zetaAddr d.surf x y) (packZeta d.surf.zetaFmt zv sv) b

/-- The stored depth and stencil, or zeros where the zeta buffer is not in use (R550, R581). -/
def readZs (d : Draw) (x y : Nat) (b : Bus) : (Nat × BitVec 8) × Bus :=
  if zetaUsed d.surf d.pix then
    let r := memReadWord d.who (zetaBpp d.surf.zetaFmt) (zetaAddr d.surf x y) b
    (unpackZeta d.surf.zetaFmt r.1, r.2)
  else ((0, 0), b)

/-- The alpha test (R551). -/
def alphaTest (e : Enums) (p : PixelState) (src : Word) : Except Refusal Bool :=
  if p.alphaTestEn then compare e p.alphaFunc (byteOf src 3).toNat p.alphaRef.toNat else .ok true

/-- The stencil test (R552); passed where it is disabled or the zeta buffer is not in use. -/
def stencilTest (e : Enums) (t : Surface) (p : PixelState) (sd : BitVec 8) : Except Refusal Bool :=
  if zetaUsed t p && p.stencilTestEn then
    compare e p.stencilFunc (p.stencilRef &&& p.stencilFuncMask).toNat (sd &&& p.stencilFuncMask).toNat
  else .ok true

/-- The depth test (R553); passed where it is disabled or the zeta buffer is not in use. -/
def depthTest (e : Enums) (t : Surface) (p : PixelState) (zi zd : Nat) : Except Refusal Bool :=
  if zetaUsed t p && p.depthTestEn then compare e p.depthFunc zi zd else .ok true

/-- The stencil after an operation, where the stencil test is enabled (R552 to R554). -/
def stencilAfter (e : Enums) (p : PixelState) (op : Word) (sd : BitVec 8) : Except Refusal (BitVec 8) :=
  if p.stencilTestEn then stencilOp e p op sd else .ok sd

/-- The colour that goes to write-back (R550 step 4/5). -/
def shadeResult (e : Enums) (p : PixelState) (src dst : Word) : Except Refusal Word :=
  if p.logicOpEn then logicOp e p.logicOp src dst else if p.blendEn then blend e p src dst else .ok src

/-- The colour write-back (R550 step 6) of a pixel whose tests passed. -/
def writeColor (d : Draw) (x y : Nat) (src : Word) (b : Bus) : Except Refusal Bus :=
  let fmt := d.surf.colorFmt
  let old := memReadWord d.who (colorBpp fmt) (colorAddr d.surf x y) b
  (shadeResult d.enums d.pix src (unpackColor fmt old.1)).map fun col =>
    let m := chanMask fmt d.pix.cmaskR d.pix.cmaskG d.pix.cmaskB d.pix.cmaskA
    memWrite d.who (colorBpp fmt) (colorAddr d.surf x y) (merge old.1 (packColor fmt col) m).toNat old.2

/-- The stencil that goes to write-back when every test passed (R550, R553). -/
def passStencil (e : Enums) (t : Surface) (p : PixelState) (sd : BitVec 8) : Except Refusal (BitVec 8) :=
  if zetaUsed t p then stencilAfter e p p.stencilOpZpass sd else .ok sd

/-- The depth that goes to write-back (R555). -/
def passDepth (p : PixelState) (zi zd : Nat) : Nat := if p.depthTestEn && p.depthWriteEn then zi else zd

/-- Every test passed (R550 steps 4 to 6): the colour, then the zeta buffer if it is in use. -/
def pixelPass (d : Draw) (x y zi zd : Nat) (sd : BitVec 8) (src : Word) (b : Bus) : Except Refusal Bus :=
  (passStencil d.enums d.surf d.pix sd).bind fun st =>
    (writeColor d x y src b).map fun b1 =>
      if zetaUsed d.surf d.pix then writeZs d x y (passDepth d.pix zi zd) st b1 else b1

/-- What follows a passed alpha test (R550 steps 2 to 6), from the stored depth `zd` and stencil `sd`. -/
def pixelTests (d : Draw) (x y zi zd : Nat) (sd : BitVec 8) (src : Word) (b : Bus) : Except Refusal Bus :=
  (stencilTest d.enums d.surf d.pix sd).bind fun stencilPassed =>
    if stencilPassed then
      (depthTest d.enums d.surf d.pix zi zd).bind fun depthPassed =>
        if depthPassed then pixelPass d x y zi zd sd src b
        else (stencilAfter d.enums d.pix d.pix.stencilOpZfail sd).map fun st => writeZs d x y zd st b
    else (stencilOp d.enums d.pix d.pix.stencilOpFail sd).map fun st => writeZs d x y zd st b

/-- A test enabled without a zeta buffer is skipped with a diagnostic (R550, R585). -/
def missingZeta (d : Draw) (b : Bus) : Bus :=
  if (d.pix.depthTestEn || d.pix.stencilTestEn) && !zetaOk d.surf then raise d.who .noZeta b else b

/-- `pixel(x, y, z, src)` (R550). -/
def pixel (d : Draw) (x y : Nat) (z src : Word) (b : Bus) : Except Refusal Bus :=
  if !inClip d.surf x y then .ok b
  else if !colorOk d.surf then .ok (raise d.who .unsupportedSurface b)
  else
    let zs := readZs d x y (missingZeta d b)
    (alphaTest d.enums d.pix src).bind fun alphaPassed =>
      if alphaPassed then pixelTests d x y (depthOf d.surf.zetaFmt z) zs.1.1 zs.1.2 src zs.2 else .ok zs.2

end Sys2Proof.Machine
end

