-- ==== Sys2Proof/Machine/Raster.lean ====
section
/-! DEFINITION. The primitive assembler (R370 to R373), the clipper (R380 to R383), the rasterizer (R390 to R394) and the span shaders
(R395). Screen coordinates are finite binary32 values, held as their integer multiples of 2^-149, so coverage and interpolation are exact
(R391). -/

namespace Sys2Proof.Machine
open Sys2Proof

/-! ### Interpolation parameters -/

/-- A function of each pair of the 13 parameters. -/
def Par13.zip (f : Word → Word → Word) (p q : Par13) : Par13 :=
  { z := f p.z q.z, r := f p.r q.r, g := f p.g q.g, b := f p.b q.b, a := f p.a q.a
    u0 := f p.u0 q.u0, v0 := f p.v0 q.v0, u1 := f p.u1 q.u1, v1 := f p.v1 q.v1
    u2 := f p.u2 q.u2, v2 := f p.v2 q.v2, u3 := f p.u3 q.u3, v3 := f p.v3 q.v3 }

/-- A function of each triple of the 13 parameters. -/
def Par13.zip3 (f : Word → Word → Word → Word) (p q s : Par13) : Par13 :=
  { z := f p.z q.z s.z, r := f p.r q.r s.r, g := f p.g q.g s.g, b := f p.b q.b s.b, a := f p.a q.a s.a
    u0 := f p.u0 q.u0 s.u0, v0 := f p.v0 q.v0 s.v0, u1 := f p.u1 q.u1 s.u1, v1 := f p.v1 q.v1 s.v1
    u2 := f p.u2 q.u2 s.u2, v2 := f p.v2 q.v2 s.v2, u3 := f p.u3 q.u3 s.u3, v3 := f p.v3 q.v3 s.v3 }

/-! ### Span shaders -/

/-- The colour of a pixel (R395). -/
def shade (d : Draw) (sel : Shader) (p : Par13) (b : Bus) : Except Refusal (Word × Bus) :=
  match sel with
  | .flat => .ok (packColorFloat p.r p.g p.b p.a, b)
  | .tex0 => .ok (sample d.who d.dxt35Mode (texUnit d.tex 0) (tcoord (texUnit d.tex 0) p.u0 p.v0) b)
  | .combiner =>
    let t0 := texel d.who d.dxt35Mode d.tex 0 p.u0 p.v0 b
    let t1 := texel d.who d.dxt35Mode d.tex 1 p.u1 p.v1 t0.2
    let t2 := texel d.who d.dxt35Mode d.tex 2 p.u2 p.v2 t1.2
    let t3 := texel d.who d.dxt35Mode d.tex 3 p.u3 p.v3 t2.2
    combine d.who d.cmb ⟨p.r, p.g, p.b, p.a⟩ t0.1 t1.1 t2.1 t3.1 t3.2

/-- The span shader of one covered pixel (R395). -/
def shadePixel (d : Draw) (sel : Shader) (x y : Nat) (p : Par13) (b : Bus) : Except Refusal Bus :=
  (shade d sel p b).bind fun r => pixel d x y p.z r.1 r.2

/-! ### Coverage and interpolation -/

/-- A sample coordinate: `n + 0.5` as a multiple of 2^-149 (R392). -/
def samplePoint (n : Nat) : Int := (2 * (n : Int) + 1) * 2 ^ 148

/-- `E_PQ(sx, sy)` (R392), a multiple of 2^-298. -/
def edge (p q : TVertex) (sx sy : Int) : Int :=
  (fFix q.x - fFix p.x) * (sy - fFix p.y) - (fFix q.y - fFix p.y) * (sx - fFix p.x)

/-- The edge is top-left (R392). -/
def topLeft (p q : TVertex) : Bool :=
  decide (fFix q.y < fFix p.y) || (decide (fFix q.y = fFix p.y) && decide (fFix p.x < fFix q.x))

/-- The sample is on the inner side of an edge (R392). -/
def inside (p q : TVertex) (sx sy : Int) : Bool :=
  decide (0 < edge p q sx sy) || (decide (edge p q sx sy = 0) && topLeft p q)

/-- `A` (R392). -/
def area (a b c : TVertex) : Int :=
  (fFix b.x - fFix a.x) * (fFix c.y - fFix a.y) - (fFix c.x - fFix a.x) * (fFix b.y - fFix a.y)

/-- The pixel's sample is covered (R392). -/
def covered (a b c : TVertex) (x y : Nat) : Bool :=
  let sx := samplePoint x
  let sy := samplePoint y
  if area a b c = 0 then false
  else if area a b c < 0 then inside a c sx sy && inside c b sx sy && inside b a sx sy
  else inside a b sx sy && inside b c sx sy && inside c a sx sy

/-- One interpolated parameter (R393) from the weights `la + lb + lc = den`, the exact value rounded once. -/
def interpolate (la lb lc den : Int) (x y z : Word) : Word :=
  if !(fIsFinite x && fIsFinite y && fIsFinite z) then fNaN 5 x y
  else if x = y ∧ y = z then x
  else
    let n := la * fFix x + lb * fFix y + lc * fFix z
    fRoundInt (if den < 0 then -n else n) (den.natAbs * 2 ^ 149)

/-- The parameters at a pixel's sample (R393), with the triangle's original vertex order. -/
def paramsAt (a b c : TVertex) (x y : Nat) : Par13 :=
  let sx := samplePoint x
  let sy := samplePoint y
  Par13.zip3 (interpolate (edge b c sx sy) (edge c a sx sy) (edge a b sx sy) (area a b c)) a.p b.p c.p

/-- One pixel of a triangle. -/
def rasterPixel (d : Draw) (sel : Shader) (a b c : TVertex) (x y : Nat) (bus : Bus) : Except Refusal Bus :=
  if covered a b c x y then shadePixel d sel x y (paramsAt a b c x y) bus else .ok bus

/-- The screen coordinates are finite (R391). -/
def finiteXY (t : TVertex) : Bool := fIsFinite t.x && fIsFinite t.y

/-- `raster(a, b, c)` (R391, R392): the pixels of the clip rectangle in rows of increasing y, increasing x within a row. -/
def raster (d : Draw) (sel : Shader) (a b c : TVertex) (bus : Bus) : Except Refusal Bus :=
  if finiteXY a && finiteXY b && finiteXY c then
    loopM (fun y => loopM (fun x => rasterPixel d sel a b c x y) d.surf.clipW.toNat d.surf.clipX.toNat)
      d.surf.clipH.toNat d.surf.clipY.toNat bus
  else .ok (raise d.who .nonfiniteVertex bus)

/-! ### Clipper -/

/-- The vertex is in front (R380): `w > W_EPS`, false for a NaN. -/
def inFront (wEps : Word) (t : TVertex) : Bool := fLt wEps t.w

/-- `lift(t)` (R381): the homogeneous form, `x`, `y` and `p.z` holding X, Y and Z. -/
def lift (off : Vec4) (t : TVertex) : TVertex :=
  { x := fMul (fSub t.x off.x) t.w
    y := fMul (fSub t.y off.y) t.w
    w := t.w
    p := { t.p with z := fMul (fSub t.p.z off.z) t.w } }

/-- `S.k + s * (E.k - S.k)` (R381). -/
def lerp (s a b : Word) : Word := fAdd a (fMul s (fSub b a))

/-- `cut(S, E)` (R381). -/
def cut (wEps : Word) (a b : TVertex) : TVertex :=
  let s := fDiv (fSub wEps a.w) (fSub b.w a.w)
  { x := lerp s a.x b.x, y := lerp s a.y b.y, w := wEps, p := Par13.zip (lerp s) a.p b.p }

/-- `unlift` (R381). -/
def unlift (off : Vec4) (t : TVertex) : TVertex :=
  { x := fAdd (fDiv t.x t.w) off.x
    y := fAdd (fDiv t.y t.w) off.y
    w := t.w
    p := { t.p with z := fAdd (fDiv t.p.z t.w) off.z } }

/-- What one edge of the triangle adds to the polygon (R381). -/
def clipEdge (wEps : Word) (s e : TVertex) : List TVertex :=
  (if inFront wEps s then [s] else []) ++ (if inFront wEps s != inFront wEps e then [cut wEps s e] else [])

/-- The clipped polygon `P` (R381), in homogeneous form. -/
def clipPolygon (wEps : Word) (a b c : TVertex) : List TVertex :=
  clipEdge wEps a b ++ clipEdge wEps b c ++ clipEdge wEps c a

/-- The fan of a polygon from its first vertex (R381). -/
def fanFrom (d : Draw) (sel : Shader) (first : TVertex) : List TVertex → Bus → Except Refusal Bus
  | p :: q :: rest, bus => (raster d sel first p q bus).bind (fanFrom d sel first (q :: rest))
  | _, bus => .ok bus

/-- The fan of a polygon (R381). -/
def drawFan (d : Draw) (sel : Shader) (poly : List TVertex) (bus : Bus) : Except Refusal Bus :=
  match poly with
  | [] => .ok bus
  | first :: rest => fanFrom d sel first rest bus

/-- `triangle(a, b, c)` (R381). -/
def triangle (d : Draw) (sel : Shader) (a b c : TVertex) (bus : Bus) : Except Refusal Bus :=
  if inFront d.wEps a && inFront d.wEps b && inFront d.wEps c then raster d sel a b c bus
  else if !inFront d.wEps a && !inFront d.wEps b && !inFront d.wEps c then .ok bus
  else drawFan d sel ((clipPolygon d.wEps (lift d.off a) (lift d.off b) (lift d.off c)).map (unlift d.off)) bus

/-! ### Primitive assembler -/

/-- Ring entry `i` (R43). -/
def ringAt (p : Prim) (i : Nat) : TVertex := bankGet .zero p.ring i

/-- The vertex `back` places before the one stored last (R370). -/
def recent (p : Prim) (back : BitVec 10) : TVertex := ringAt p (p.rhead - 1 - back).toNat

/-- The topologies of R373. -/
def topologyOk (ty : BitVec 4) : Bool := ty = 5 || ty = 6 || ty = 7 || ty = 8 || ty = 9

/-- The new vertex stored (R370); the first of a fan also goes to the keep slot. -/
def storeVertex (p : Prim) (t : TVertex) : Prim :=
  let ring := bankSet .zero p.ring p.rhead.toNat t
  { p with
    ring := if p.primType = 7 ∧ p.vcount = 0 then bankSet .zero ring 1024 t else ring
    rhead := p.rhead + 1
    vcount := p.vcount + 1 }

/-- The triangles that vertex `n` completes, in order; `p` is the assembler after it was stored (R370, R371). -/
def completed (p : Prim) (n : Nat) : List (TVertex × TVertex × TVertex) :=
  let v := recent p
  match p.primType with
  | 5 => if n % 3 = 2 then [(v 2, v 1, v 0)] else []
  | 6 => if n < 2 then [] else if n % 2 = 0 then [(v 2, v 1, v 0)] else [(v 2, v 0, v 1)]
  | 7 => if n < 2 then [] else [(ringAt p 1024, v 1, v 0)]
  | 8 => if n % 4 = 3 then [(v 3, v 2, v 1), (v 3, v 1, v 0)] else []
  | 9 => if n < 3 ∨ n % 2 = 0 then [] else [(v 3, v 2, v 0), (v 0, v 1, v 3)]
  | _ => []

/-- Each triangle passed to the clipper before the next (R370). -/
def drawTriangles (d : Draw) (sel : Shader) : List (TVertex × TVertex × TVertex) → Bus → Except Refusal Bus
  | [], bus => .ok bus
  | t :: rest, bus => (triangle d sel t.1 t.2.1 t.2.2 bus).bind (drawTriangles d sel rest)

/-- `assemble(t)` (R370). -/
def assemble (d : Draw) (p : Prim) (t : TVertex) (bus : Bus) : Except Refusal (Prim × Bus) :=
  let p1 := storeVertex p t
  let bus1 := if !topologyOk p.primType && p.vcount = 0 then raise d.who .unsupportedTopology bus else bus
  (drawTriangles d p.rsel (completed p1 p.vcount.toNat) bus1).map fun b => (p1, b)

end Sys2Proof.Machine
end

