-- ==== Sys2Proof/Machine/VertexProgram.lean ====
section
/-! DEFINITION. The vertex-program unit: the result of each opcode (R311 to R337), the execution of one instruction (R307 to R309) and the
run of a vertex (R306, R345). It changes its own registers and the diagnostic log only. -/

namespace Sys2Proof.Machine
open Sys2Proof

/-! ### Vector opcodes -/

/-- A function of each pair of components. -/
def zip4 (f : Word → Word → Word) (p q : Vec4) : Vec4 := ⟨f p.x q.x, f p.y q.y, f p.z q.z, f p.w q.w⟩

/-- The vector of one value. -/
def rep4 (x : Word) : Vec4 := ⟨x, x, x, x⟩

/-- MOV (R312). -/
def vecMov (a : Vec4) : Vec4 := a

/-- MUL (R313). -/
def vecMul (a b : Vec4) : Vec4 := zip4 fMul a b

/-- ADD (R314). -/
def vecAdd (a c : Vec4) : Vec4 := zip4 fAdd a c

/-- MAD (R315): the product is rounded before the sum. -/
def vecMad (a b c : Vec4) : Vec4 := zip4 fAdd (zip4 fMul a b) c

/-- The three-term product sum that R316 to R318 share, left to right. -/
def dotXyz (a b : Vec4) : Word := fAdd (fAdd (fMul a.x b.x) (fMul a.y b.y)) (fMul a.z b.z)

/-- DP3 (R316). -/
def vecDp3 (a b : Vec4) : Vec4 := rep4 (dotXyz a b)

/-- DPH (R317). -/
def vecDph (a b : Vec4) : Vec4 := rep4 (fAdd (dotXyz a b) b.w)

/-- The four-term product sum, left to right (R318, R285). -/
def dotXyzw (a b : Vec4) : Word := fAdd (dotXyz a b) (fMul a.w b.w)

/-- DP4 (R318). -/
def vecDp4 (a b : Vec4) : Vec4 := rep4 (dotXyzw a b)

/-- DST (R319). -/
def vecDst (a b : Vec4) : Vec4 := ⟨fOne, fMul a.y b.y, a.z, b.w⟩

/-- MIN (R320). -/
def vecMin (a b : Vec4) : Vec4 := zip4 fMin a b

/-- MAX (R321). -/
def vecMax (a b : Vec4) : Vec4 := zip4 fMax a b

/-- A comparison as a data value (R50). -/
def fBool (c : Bool) : Word := if c then fOne else 0

/-- SLT (R322). -/
def vecSlt (a b : Vec4) : Vec4 := zip4 (fun x y => fBool (fLt x y)) a b

/-- SGE (R323). -/
def vecSge (a b : Vec4) : Vec4 := zip4 (fun x y => fBool (fGe x y)) a b

/-- ARL's value (R324). -/
def arlValue (a : Vec4) : Word := BitVec.ofInt 32 (fFloorSat a.x)

/-- The vector result `V`; what stands for NOP and ARL is never written (R309, R311). -/
def vectorResult (vop : BitVec 4) (a b c : Vec4) : Vec4 :=
  match vop with
  | 1 => vecMov a
  | 2 => vecMul a b
  | 3 => vecAdd a c
  | 4 => vecMad a b c
  | 5 => vecDp3 a b
  | 6 => vecDph a b
  | 7 => vecDp4 a b
  | 8 => vecDst a b
  | 9 => vecMin a b
  | 10 => vecMax a b
  | 11 => vecSlt a b
  | 12 => vecSge a b
  | _ => .zero

/-! ### Scalar opcodes -/

/-- IMV (R331). -/
def scaImv (c : Vec4) : Vec4 := c

/-- RCP (R332), of component x (R329). -/
def scaRcp (c : Vec4) : Vec4 := rep4 (fRcp c.x)

/-- RCC (R333). -/
def scaRcc (m : Numerics) (c : Vec4) : Vec4 := rep4 (rccFn m c.x)

/-- RSQ (R334). -/
def scaRsq (c : Vec4) : Vec4 := rep4 (fRsq c.x)

/-- EXP (R335). In `s - floor(s)` the floor is the integer taken as binary32, so the floor of either zero is +0.0 and y of -0.0 is -0.0:
the model's reading, assumption log 35. -/
def scaExp (m : Numerics) (c : Vec4) : Vec4 :=
  let s := c.x
  if fIsNaN s then ⟨fNaN 6 s 0, fNaN 6 s 1, fNaN 6 s 2, fOne⟩
  else if fIsInf s then
    (if fSign s then ⟨0, fSub s s, 0, fOne⟩ else ⟨fPosInf, fSub s s, fPosInf, fOne⟩)
  else ⟨fPow2 (fFloorInt s), fSub s (fOfInt (fFloorInt s)), exp2Trunc m s, fOne⟩

/-- LOG (R336). -/
def scaLog (m : Numerics) (c : Vec4) : Vec4 :=
  let s := c.x
  if fIsNaN s then ⟨fNaN 7 s 0, fNaN 7 s 1, fNaN 7 s 2, fOne⟩
  else if fIsZero s then ⟨fNegInf, fOne, fNegInf, fOne⟩
  else if fIsInf s then ⟨fPosInf, fOne, fPosInf, fOne⟩
  else ⟨fOfInt (fExponent s), fMantissa s, log2Fn m (fAbs s), fOne⟩

/-- LIT's diffuse component (R337): clamped to [0, 1]; a NaN stays one. -/
def litDiffuse (x : Word) : Word := if fIsNaN x then fNaN 8 x 0 else fMin (fMax x 0) fOne

/-- LIT (R337): diffuse x, specular y, power w. -/
def scaLit (m : Numerics) (c : Vec4) : Vec4 := ⟨fOne, litDiffuse c.x, if fLt 0 c.x then powFn m c.y c.w else 0, fOne⟩

/-- The scalar-unit result `S`; what stands for NOP is never written (R309, R330). -/
def scalarResult (m : Numerics) (sop : BitVec 4) (c : Vec4) : Vec4 :=
  match sop with
  | 1 => scaImv c
  | 2 => scaRcp c
  | 3 => scaRcc m c
  | 4 => scaRsq c
  | 5 => scaExp m c
  | 6 => scaLog m c
  | 7 => scaLit m c
  | _ => .zero

/-! ### Write-back (R309) -/

/-- `mask_write`: component k is replaced for each set bit; bit 3 is x (R309). -/
def maskWrite (m : BitVec 4) (val dst : Vec4) : Vec4 :=
  ⟨if m.getLsbD 3 then val.x else dst.x, if m.getLsbD 2 then val.y else dst.y,
    if m.getLsbD 1 then val.z else dst.z, if m.getLsbD 0 then val.w else dst.w⟩

/-- A masked write into a bank of vectors. -/
def maskSet (b : Bank Vec4) (i : Nat) (m : BitVec 4) (val : Vec4) : Bank Vec4 :=
  bankSet .zero b i (maskWrite m val (bankGet .zero b i))

/-- The vector opcode has a result that is written: neither NOP nor ARL (R309). -/
def vecWrites (vop : BitVec 4) : Bool := vop != 0 && vop != 13

/-- The vector result goes to a temporary. -/
def vecToTemp (vop : BitVec 4) (f : VpFields) : Bool := vecWrites vop && f.vtMask != 0

/-- The scalar result goes to a temporary. -/
def scaToTemp (sop : BitVec 4) (f : VpFields) : Bool := sop != 0 && f.stMask != 0

/-- The temporary of the scalar result: r1 beside a vector write (R309). -/
def scaDest (vop : BitVec 4) (f : VpFields) : Nat := if vecToTemp vop f then 1 else f.rDst.toNat

/-- The temporaries after an instruction (R309). -/
def writeTemps (vop sop : BitVec 4) (f : VpFields) (v s : Vec4) (r : Bank Vec4) : Bank Vec4 :=
  let r1 := if vecToTemp vop f then maskSet r f.rDst.toNat f.vtMask v else r
  if scaToTemp sop f then maskSet r1 (scaDest vop f) f.stMask s else r1

/-- An output or constant is written (R309). -/
def outWrites (vop sop : BitVec 4) (f : VpFields) : Bool := f.oMask != 0 && (if f.oMux = 0 then vecWrites vop else sop != 0)

/-- The output and constant write (R309): out-of-range indices are dropped with a diagnostic. -/
def writeOutput (q : Who) (vop sop : BitVec 4) (f : VpFields) (v s : Vec4) (u : VProg) (b : Bus) : VProg × Bus :=
  if outWrites vop sop f then
    let val := if f.oMux = 0 then v else s
    let n := f.oAddr.toNat
    if f.orb = 1 then
      (if n < 16 then ({ u with o := maskSet u.o n f.oMask val }, b) else (u, raise q .vpOutOor b))
    else if n < 192 then ({ u with vpc := maskSet u.vpc n f.oMask val }, b)
    else (u, raise q .vpOutOor b)
  else (u, b)

/-- The write-back of an instruction (R309) from both results and operand A, whose x component ARL takes. -/
def writeBack (q : Who) (vop sop : BitVec 4) (f : VpFields) (v s a : Vec4) (u : VProg) (b : Bus) : VProg × Bus :=
  let u1 := { u with r := writeTemps vop sop f v s u.r }
  let w := writeOutput q vop sop f v s u1 b
  ({ w.1 with a0x := if vop = 13 then arlValue a else u.a0x }, w.2)

/-! ### One instruction and the run of a vertex -/

/-- No reserved opcode (R340). -/
def opcodesLegal (vop sop : BitVec 4) : Bool := decide (vop < 14#4) && decide (sop < 8#4)

/-- `execute(I)` (R306): every operand that is read, then both results, then the write-back. -/
def vpExecute (m : Numerics) (q : Who) (vop sop : BitVec 4) (f : VpFields) (u : VProg) (bus : Bus) : Except Refusal (VProg × Bus) :=
  if opcodesLegal vop sop then do
    let a ← operandIf (vectorReads vop).1 u f f.a
    let b ← operandIf (vectorReads vop).2.1 u f f.b
    let c ← operandIf ((vectorReads vop).2.2 || scalarReads sop) u f f.c
    return writeBack q vop sop f (vectorResult vop a b c) (scalarResult m sop c) a u bus
  else .error (.vpReserved u.ip)

/-- Word `j` of instruction `i` (R45). -/
def vpiAt (u : VProg) (i j : Nat) : Word := bankGet 0 u.vpi (4 * i + j)

/-- The four words of instruction `i`. -/
def vpWordsAt (u : VProg) (i : Nat) : VpWords := ⟨vpiAt u i 0, vpiAt u i 1, vpiAt u i 2, vpiAt u i 3⟩

/-- The loop of R306 under the parameters `par`; `fuel` 257 is more than a run takes. -/
def vpLoop (par : Params) (q : Who) : (fuel : Nat) → VProg → Bus → Except Refusal (VProg × Bus)
  | 0, u, b => .ok (u, b)
  | fuel + 1, u, b =>
    if u.ip = 256 then .ok (u, raise q .vpNoEnd b)
    else
      let l := par.tables.vpLayout
      let ws := vpWordsAt u u.ip.toNat
      (vpExecute par.numerics q (vpVopBy l ws) (vpSopBy l ws) (vpFieldsBy l ws) u b).bind fun r =>
        if (vpFieldsBy l ws).final = 1 then .ok r else vpLoop par q fuel { r.1 with ip := r.1.ip + 1 } r.2

/-- `vp_run(vtx)` (R306). -/
def vpRun (par : Params) (q : Who) (vtx : Bank Vec4) (u : VProg) (b : Bus) : Except Refusal (VProg × Bus) :=
  vpLoop par q 257 { u with v := vtx, r := [], o := [], ip := u.start.setWidth 9 } b

/-- The interpolation parameters from z, the colour and the four texture coordinate vectors (R285, R345). -/
def mkParams (z : Word) (col t0 t1 t2 t3 : Vec4) : Par13 :=
  { z := z, r := col.x, g := col.y, b := col.z, a := col.w, u0 := t0.x, v0 := t0.y, u1 := t1.x, v1 := t1.y
    u2 := t2.x, v2 := t2.y, u3 := t3.x, v3 := t3.y }

/-- The outputs as a transformed vertex (R345). -/
def vpOutputs (u : VProg) : TVertex :=
  let o := fun i => bankGet .zero u.o i
  ⟨(o 0).x, (o 0).y, (o 0).w, mkParams (o 0).z (o 3) (o 9) (o 10) (o 11) (o 12)⟩

/-- `vp_transform(vtx)` (R345). -/
def vpTransform (par : Params) (q : Who) (vtx : Bank Vec4) (u : VProg) (b : Bus) : Except Refusal (TVertex × VProg × Bus) :=
  (vpRun par q vtx u b).map fun r => (vpOutputs r.1, r.1, r.2)

end Sys2Proof.Machine
end

