-- ==== Sys2Proof/Machine/ProgramInstrs.lean ====
section
/-! DEFINITION. The vertex-program instructions as they act on the block (R306 to R309): the run of a vertex executes the same
`vpExecute` for each instruction of its program. A vector arm is the whole instruction with its vector opcode named, a scalar arm the
whole instruction with its scalar opcode named. -/

namespace Sys2Proof.Machine
open Sys2Proof

/-- `execute(I)` on the block's state (R306). -/
def runInstr (vop sop : BitVec 4) (f : VpFields) (s : State) : Run :=
  Run.ofExcept ((vpExecute s.par.numerics (who s) vop sop f s.vp s.bus).map fun r => { s with vp := r.1, bus := r.2 })

/-- NOP (R311). -/
def execVpNop (sop : BitVec 4) (f : VpFields) (s : State) : Run :=
  runInstr 0 sop f s

/-- MOV (R312). -/
def execVpMov (sop : BitVec 4) (f : VpFields) (s : State) : Run :=
  runInstr 1 sop f s

/-- MUL (R313). -/
def execVpMul (sop : BitVec 4) (f : VpFields) (s : State) : Run :=
  runInstr 2 sop f s

/-- ADD (R314). -/
def execVpAdd (sop : BitVec 4) (f : VpFields) (s : State) : Run :=
  runInstr 3 sop f s

/-- MAD (R315). -/
def execVpMad (sop : BitVec 4) (f : VpFields) (s : State) : Run :=
  runInstr 4 sop f s

/-- DP3 (R316). -/
def execVpDp3 (sop : BitVec 4) (f : VpFields) (s : State) : Run :=
  runInstr 5 sop f s

/-- DPH (R317). -/
def execVpDph (sop : BitVec 4) (f : VpFields) (s : State) : Run :=
  runInstr 6 sop f s

/-- DP4 (R318). -/
def execVpDp4 (sop : BitVec 4) (f : VpFields) (s : State) : Run :=
  runInstr 7 sop f s

/-- DST (R319). -/
def execVpDst (sop : BitVec 4) (f : VpFields) (s : State) : Run :=
  runInstr 8 sop f s

/-- MIN (R320). -/
def execVpMin (sop : BitVec 4) (f : VpFields) (s : State) : Run :=
  runInstr 9 sop f s

/-- MAX (R321). -/
def execVpMax (sop : BitVec 4) (f : VpFields) (s : State) : Run :=
  runInstr 10 sop f s

/-- SLT (R322). -/
def execVpSlt (sop : BitVec 4) (f : VpFields) (s : State) : Run :=
  runInstr 11 sop f s

/-- SGE (R323). -/
def execVpSge (sop : BitVec 4) (f : VpFields) (s : State) : Run :=
  runInstr 12 sop f s

/-- ARL (R324). -/
def execVpArl (sop : BitVec 4) (f : VpFields) (s : State) : Run :=
  runInstr 13 sop f s

/-- NOP (R330). -/
def execVpSNop (vop : BitVec 4) (f : VpFields) (s : State) : Run :=
  runInstr vop 0 f s

/-- IMV (R331). -/
def execVpSImv (vop : BitVec 4) (f : VpFields) (s : State) : Run :=
  runInstr vop 1 f s

/-- RCP (R332). -/
def execVpSRcp (vop : BitVec 4) (f : VpFields) (s : State) : Run :=
  runInstr vop 2 f s

/-- RCC (R333). -/
def execVpSRcc (vop : BitVec 4) (f : VpFields) (s : State) : Run :=
  runInstr vop 3 f s

/-- RSQ (R334). -/
def execVpSRsq (vop : BitVec 4) (f : VpFields) (s : State) : Run :=
  runInstr vop 4 f s

/-- EXP (R335). -/
def execVpSExp (vop : BitVec 4) (f : VpFields) (s : State) : Run :=
  runInstr vop 5 f s

/-- LOG (R336). -/
def execVpSLog (vop : BitVec 4) (f : VpFields) (s : State) : Run :=
  runInstr vop 6 f s

/-- LIT (R337). -/
def execVpSLit (vop : BitVec 4) (f : VpFields) (s : State) : Run :=
  runInstr vop 7 f s

end Sys2Proof.Machine
end

