-- ==== Sys2Proof/Machine/Puller.lean ====
section
/-! DEFINITION. The command puller: what each command word and the bind-object data word do (R161 to R172), and the bookkeeping of a
burst (R165, R170, R171). `GET` has passed the word before any of these runs (R160). -/

namespace Sys2Proof.Machine
open Sys2Proof

/-- JUMP (R161). -/
def execJump (target : BitVec 30) (s : State) : Run :=
  .next (s.setGet (target ++ 0#2))

/-- CALL (R162): a jump, no return address kept. -/
def execCall (target : BitVec 30) (s : State) : Run :=
  .next (s.setGet (target ++ 0#2))

/-- RETURN (R163): no effect but the diagnostic. -/
def execRet (s : State) : Run :=
  .next (s.raise .unimplementedReturn)

/-- OLD_JUMP (R164). -/
def execOldJump (target : BitVec 27) (s : State) : Run :=
  .next (s.setGet (0#3 ++ target ++ 0#2))

/-- The burst a counted header opens (R165). -/
def openBurst (incr : Bool) (mthd : BitVec 11) (subc : BitVec 3) (count : BitVec 11) : Burst :=
  { mthd := mthd, subc := subc, count := count.setWidth 24, incr := incr
    bind := incr && decide (mthd = 0) && decide (count = 1), lpend := false }

/-- INCREASING header (R165); the bind form is R112. -/
def execIncreasing (mthd : BitVec 11) (subc : BitVec 3) (count : BitVec 11) (s : State) : Run :=
  .next (s.setBurst (openBurst true mthd subc count))

/-- NONINCREASING header (R165). -/
def execNonincreasing (mthd : BitVec 11) (subc : BitVec 3) (count : BitVec 11) (s : State) : Run :=
  .next (s.setBurst (openBurst false mthd subc count))

/-- LONG_NONINCREASING header (R171): the next word is the count. -/
def execLongNonincreasing (mthd : BitVec 11) (subc : BitVec 3) (s : State) : Run :=
  .next (s.setBurst ⟨mthd, subc, 0, false, false, true⟩)

/-- SLI_CONDITIONAL (R168): no effect but the diagnostic. -/
def execSliConditional (_ignored : BitVec 14) (s : State) : Run :=
  .next (s.raise .unimplementedCommand)

/-- INVALID (R169): skipped with a diagnostic. -/
def execInvalid (_word : Word) (s : State) : Run :=
  .next (s.raise .badCommand)

/-- The binding of R166: replaced where the lookup finds the handle, else unchanged with a diagnostic. -/
def State.bindHandle (s : State) (subc : BitVec 3) (handle : Word) : State :=
  match objectLookup s s.cur handle with
  | some o => { s with subs := bankSet .none s.subs (subIndex s.cur subc) ⟨handle, o.cls⟩ }
  | none => s.raise .unknownHandle

/-- The bind-object data word (R166), on the subchannel of the burst in progress. -/
def execBindObject (handle : Word) (s : State) : Run :=
  let b := (curChan s).burst
  .next (((s.bindHandle b.subc handle).setReg s.cur b.subc 0 handle).setBurst { b with count := 0, bind := false })

/-- `long_count(ch, c)` (R171). -/
def longCount (c : Word) (s : State) : Run :=
  .next (s.setBurst { (curChan s).burst with count := c.extractLsb' 0 24, lpend := false })

/-- The burst after one data word (R170). -/
def nextBurst (b : Burst) : Burst := { b with count := b.count - 1, mthd := if b.incr then b.mthd + 1 else b.mthd }

/-- The burst advanced past a data word (R170); a suspension by the method stays. -/
def advanceBurst (s : State) : State := s.setBurst (nextBurst (curChan s).burst)

end Sys2Proof.Machine
end

