-- ==== Sys2Proof/Machine/SurfaceMethods.lean ====
section
/-! DEFINITION. The render-target, clear and synchronisation methods (41_methods_surface.md). The store of the data word in `regs`
(R167) is the puller's. -/

namespace Sys2Proof.Machine
open Sys2Proof

/-- SURFACE_CLIP_HORIZONTAL (R200). -/
def execSurfaceClipHorizontal (d : Word) (s : State) : Run :=
  .next { s with surf := { s.surf with clipX := lo16 d, clipW := hi16 d } }

/-- SURFACE_CLIP_VERTICAL (R201). -/
def execSurfaceClipVertical (d : Word) (s : State) : Run :=
  .next { s with surf := { s.surf with clipY := lo16 d, clipH := hi16 d } }

/-- SURFACE_FORMAT (R202, R150). -/
def execSurfaceFormat (d : Word) (s : State) : Run :=
  .next { s with
    surf := { s.surf with
      colorFmt := d.extractLsb' 0 4, zetaFmt := d.extractLsb' 4 4, layout := d.extractLsb' 8 4, aa := d.extractLsb' 12 4
      log2w := d.extractLsb' 16 8, log2h := d.extractLsb' 24 8 } }

/-- SURFACE_PITCH (R203). -/
def execSurfacePitch (d : Word) (s : State) : Run :=
  .next { s with surf := { s.surf with colorPitch := lo16 d, zetaPitch := hi16 d } }

/-- SURFACE_COLOR_OFFSET (R204). -/
def execSurfaceColorOffset (d : Word) (s : State) : Run :=
  .next { s with surf := { s.surf with colorOffset := d } }

/-- SURFACE_ZETA_OFFSET (R205). -/
def execSurfaceZetaOffset (d : Word) (s : State) : Run :=
  .next { s with surf := { s.surf with zetaOffset := d } }

/-- ZSTENCIL_CLEAR_VALUE (R206). -/
def execZstencilClearValue (d : Word) (s : State) : Run :=
  .next { s with clear := { s.clear with zstencil := d } }

/-- COLOR_CLEAR_VALUE (R207). -/
def execColorClearValue (d : Word) (s : State) : Run :=
  .next { s with clear := { s.clear with color := d } }

/-- CLEAR_RECT_HORIZONTAL (R208). -/
def execClearRectHorizontal (d : Word) (s : State) : Run :=
  .next { s with clear := { s.clear with x0 := lo16 d, x1 := hi16 d } }

/-- CLEAR_RECT_VERTICAL (R209). -/
def execClearRectVertical (d : Word) (s : State) : Run :=
  .next { s with clear := { s.clear with y0 := lo16 d, y1 := hi16 d } }

/-- CLEAR_SURFACE (R210). -/
def execClearSurface (d : Word) (s : State) : Run :=
  .next { s with bus := clearSurface (who s) s.surf s.pix s.clear d s.bus }

/-- The word that `PGRAPH.notify_src` takes (R220). -/
def notifySource (ch : BitVec 5) (subc : BitVec 3) : Word :=
  ch.setWidth 32 <<< 20 ||| subc.setWidth 32 <<< 16 ||| 0x0100

/-- The interrupt registers as the interrupt-state method with a nonzero word writes them (R220). -/
def notifyIrq (notify src d : Word) (r : Irq) : Irq := { r with notifySrc := src, notifyData := d, pgraphIntr := r.pgraphIntr ||| notify }

/-- NO_OPERATION (R220): with a nonzero word it notifies and blocks the channel. -/
def execNoOperation (d : Word) (s : State) : Run :=
  if d = 0 then .next s
  else
    .next ((s.withIrq (notifyIrq s.par.irqBits.notify (notifySource s.cur (curChan s).burst.subc) d)).suspend .pgraphIdle)

/-- WAIT_FOR_VBLANK (R221). -/
def execWaitForVblank (_d : Word) (s : State) : Run :=
  .next (s.suspend .vblank)

end Sys2Proof.Machine
end

