-- ==== Sys2Proof/Machine/TextureMethods.lean ====
section
/-! DEFINITION. The texture unit methods (R420 to R425), one for each unit. -/

namespace Sys2Proof.Machine
open Sys2Proof

/-- Texture unit `t` replaced by `f` of it (R47). -/
def State.updTex (s : State) (t : Nat) (f : TexUnit → TexUnit) : State :=
  { s with tex := bankSet .init s.tex t (f (bankGet .init s.tex t)) }

/-- TEXTURE_OFFSET (R420). -/
def setTexOffset (d : Word) (u : TexUnit) : TexUnit := { u with offset := d }

/-- TEXTURE_FORMAT (R421, R151). -/
def setTexFormat (d : Word) (u : TexUnit) : TexUnit :=
  { u with fmt := d.extractLsb' 8 8, mips := d.extractLsb' 16 4, log2u := d.extractLsb' 20 4, log2v := d.extractLsb' 24 4 }

/-- TEXTURE_ADDRESS (R422). -/
def setTexAddress (d : Word) (u : TexUnit) : TexUnit := { u with addr := d }

/-- TEXTURE_CONTROL0 (R423). -/
def setTexControl0 (d : Word) (u : TexUnit) : TexUnit := { u with enable := bitOf d 30, colorKey := d.extractLsb' 0 2 }

/-- TEXTURE_CONTROL1 (R424). -/
def setTexControl1 (d : Word) (u : TexUnit) : TexUnit := { u with pitch := hi16 d }

/-- TEXTURE_IMAGE_RECT (R425). -/
def setTexImageRect (d : Word) (u : TexUnit) : TexUnit := { u with rw := hi16 d, rh := lo16 d }

/-- TEXTURE_OFFSET(0) (R420). -/
def execTextureOffset0 (d : Word) (s : State) : Run :=
  .next (s.updTex 0 (setTexOffset d))

/-- TEXTURE_OFFSET(1) (R420). -/
def execTextureOffset1 (d : Word) (s : State) : Run :=
  .next (s.updTex 1 (setTexOffset d))

/-- TEXTURE_OFFSET(2) (R420). -/
def execTextureOffset2 (d : Word) (s : State) : Run :=
  .next (s.updTex 2 (setTexOffset d))

/-- TEXTURE_OFFSET(3) (R420). -/
def execTextureOffset3 (d : Word) (s : State) : Run :=
  .next (s.updTex 3 (setTexOffset d))

/-- TEXTURE_FORMAT(0) (R421). -/
def execTextureFormat0 (d : Word) (s : State) : Run :=
  .next (s.updTex 0 (setTexFormat d))

/-- TEXTURE_FORMAT(1) (R421). -/
def execTextureFormat1 (d : Word) (s : State) : Run :=
  .next (s.updTex 1 (setTexFormat d))

/-- TEXTURE_FORMAT(2) (R421). -/
def execTextureFormat2 (d : Word) (s : State) : Run :=
  .next (s.updTex 2 (setTexFormat d))

/-- TEXTURE_FORMAT(3) (R421). -/
def execTextureFormat3 (d : Word) (s : State) : Run :=
  .next (s.updTex 3 (setTexFormat d))

/-- TEXTURE_ADDRESS(0) (R422). -/
def execTextureAddress0 (d : Word) (s : State) : Run :=
  .next (s.updTex 0 (setTexAddress d))

/-- TEXTURE_ADDRESS(1) (R422). -/
def execTextureAddress1 (d : Word) (s : State) : Run :=
  .next (s.updTex 1 (setTexAddress d))

/-- TEXTURE_ADDRESS(2) (R422). -/
def execTextureAddress2 (d : Word) (s : State) : Run :=
  .next (s.updTex 2 (setTexAddress d))

/-- TEXTURE_ADDRESS(3) (R422). -/
def execTextureAddress3 (d : Word) (s : State) : Run :=
  .next (s.updTex 3 (setTexAddress d))

/-- TEXTURE_CONTROL0(0) (R423). -/
def execTextureControl0N0 (d : Word) (s : State) : Run :=
  .next (s.updTex 0 (setTexControl0 d))

/-- TEXTURE_CONTROL0(1) (R423). -/
def execTextureControl0N1 (d : Word) (s : State) : Run :=
  .next (s.updTex 1 (setTexControl0 d))

/-- TEXTURE_CONTROL0(2) (R423). -/
def execTextureControl0N2 (d : Word) (s : State) : Run :=
  .next (s.updTex 2 (setTexControl0 d))

/-- TEXTURE_CONTROL0(3) (R423). -/
def execTextureControl0N3 (d : Word) (s : State) : Run :=
  .next (s.updTex 3 (setTexControl0 d))

/-- TEXTURE_CONTROL1(0) (R424). -/
def execTextureControl1N0 (d : Word) (s : State) : Run :=
  .next (s.updTex 0 (setTexControl1 d))

/-- TEXTURE_CONTROL1(1) (R424). -/
def execTextureControl1N1 (d : Word) (s : State) : Run :=
  .next (s.updTex 1 (setTexControl1 d))

/-- TEXTURE_CONTROL1(2) (R424). -/
def execTextureControl1N2 (d : Word) (s : State) : Run :=
  .next (s.updTex 2 (setTexControl1 d))

/-- TEXTURE_CONTROL1(3) (R424). -/
def execTextureControl1N3 (d : Word) (s : State) : Run :=
  .next (s.updTex 3 (setTexControl1 d))

/-- TEXTURE_IMAGE_RECT(0) (R425). -/
def execTextureImageRect0 (d : Word) (s : State) : Run :=
  .next (s.updTex 0 (setTexImageRect d))

/-- TEXTURE_IMAGE_RECT(1) (R425). -/
def execTextureImageRect1 (d : Word) (s : State) : Run :=
  .next (s.updTex 1 (setTexImageRect d))

/-- TEXTURE_IMAGE_RECT(2) (R425). -/
def execTextureImageRect2 (d : Word) (s : State) : Run :=
  .next (s.updTex 2 (setTexImageRect d))

/-- TEXTURE_IMAGE_RECT(3) (R425). -/
def execTextureImageRect3 (d : Word) (s : State) : Run :=
  .next (s.updTex 3 (setTexImageRect d))

end Sys2Proof.Machine
end

