-- ==== Sys2Proof/Machine/TransformMethods.lean ====
section
/-! DEFINITION. The transform state (R280 to R282) and the vertex-program upload and control methods (R300 to R305). -/

namespace Sys2Proof.Machine
open Sys2Proof

/-- PROJECTION_MATRIX (R280). -/
def execProjectionMatrix (k : BitVec 4) (d : Word) (s : State) : Run :=
  .next { s with xf := { s.xf with proj := bankSet 0 s.xf.proj k.toNat d } }

/-- MODEL_VIEW_MATRIX (R280). -/
def execModelViewMatrix (k : BitVec 4) (d : Word) (s : State) : Run :=
  .next { s with xf := { s.xf with modelview := bankSet 0 s.xf.modelview k.toNat d } }

/-- INVERSE_MODEL_VIEW_MATRIX (R280). -/
def execInverseModelViewMatrix (k : BitVec 4) (d : Word) (s : State) : Run :=
  .next { s with xf := { s.xf with invModelview := bankSet 0 s.xf.invModelview k.toNat d } }

/-- COMPOSITE_MATRIX (R280). -/
def execCompositeMatrix (k : BitVec 4) (d : Word) (s : State) : Run :=
  .next { s with xf := { s.xf with composite := bankSet 0 s.xf.composite k.toNat d } }

/-- One component of a vertex-program constant replaced (R281, R282, R301). -/
def setConst (u : VProg) (i : Nat) (k : BitVec 2) (d : Word) : VProg :=
  { u with vpc := bankSet .zero u.vpc i (Vec4.set (bankGet .zero u.vpc i) k d) }

/-- VIEWPORT_OFFSET (R281), mirrored in constant 59. -/
def execViewportOffset (k : BitVec 2) (d : Word) (s : State) : Run :=
  .next { s with xf := { s.xf with vpOffset := Vec4.set s.xf.vpOffset k d }, vp := setConst s.vp 59 k d }

/-- VIEWPORT_SCALE (R282), mirrored in constant 58. -/
def execViewportScale (k : BitVec 2) (d : Word) (s : State) : Run :=
  .next { s with xf := { s.xf with vpScale := Vec4.set s.xf.vpScale k d }, vp := setConst s.vp 58 k d }

/-- The upload cursor after one instruction word (R300). -/
def nextLoad (u : VProg) : VProg := { u with word := u.word + 1, load := if u.word = 3 then u.load + 1 else u.load }

/-- TRANSFORM_PROGRAM (R300); `_j` does not select the word. -/
def execTransformProgram (_j : BitVec 5) (d : Word) (s : State) : Run :=
  .next { s with vp := nextLoad { s.vp with vpi := bankSet 0 s.vp.vpi (4 * s.vp.load.toNat + s.vp.word.toNat) d } }

/-- The constant cursor after one component (R301). -/
def nextConst (u : VProg) : VProg := { u with cWord := u.cWord + 1, cLoad := if u.cWord = 3 then u.cLoad + 1 else u.cLoad }

/-- TRANSFORM_CONSTANT (R301); `_j` does not select the component. -/
def execTransformConstant (_j : BitVec 5) (d : Word) (s : State) : Run :=
  if s.vp.cLoad.toNat < 192 then .next { s with vp := nextConst (setConst s.vp s.vp.cLoad.toNat s.vp.cWord d) }
  else .next ({ s with vp := nextConst s.vp }.raise .constOor)

/-- TRANSFORM_PROGRAM_LOAD (R302). -/
def execTransformProgramLoad (d : Word) (s : State) : Run :=
  .next { s with vp := { s.vp with load := byteOf d 0, word := 0 } }

/-- TRANSFORM_CONSTANT_LOAD (R303). -/
def execTransformConstantLoad (d : Word) (s : State) : Run :=
  .next { s with vp := { s.vp with cLoad := byteOf d 0, cWord := 0 } }

/-- TRANSFORM_EXECUTION_MODE (R304). -/
def execTransformExecutionMode (d : Word) (s : State) : Run :=
  .next { s with vp := { s.vp with mode := decide (d.extractLsb' 0 2 = 2#2) } }

/-- TRANSFORM_PROGRAM_START (R305). -/
def execTransformProgramStart (d : Word) (s : State) : Run :=
  .next { s with vp := { s.vp with start := byteOf d 0 } }

end Sys2Proof.Machine
end

