-- ==== Sys2Proof/Machine/VertexInput.lean ====
section
/-! DEFINITION. The entry from the vertex methods into the pipeline: the fixed-function transform (R285) and `emit` (R255). -/

namespace Sys2Proof.Machine
open Sys2Proof

/-- Row `r` of a matrix (R280). -/
def matrixRow (m : Bank Word) (r : Nat) : Vec4 :=
  ⟨bankGet 0 m (4 * r), bankGet 0 m (4 * r + 1), bankGet 0 m (4 * r + 2), bankGet 0 m (4 * r + 3)⟩

/-- `M × v` (R285): each row's products summed left to right. -/
def matrixVec (m : Bank Word) (v : Vec4) : Vec4 :=
  ⟨dotXyzw (matrixRow m 0) v, dotXyzw (matrixRow m 1) v, dotXyzw (matrixRow m 2) v, dotXyzw (matrixRow m 3) v⟩

/-- `ff_transform(vtx)` (R285). -/
def ffTransform (composite : Bank Word) (vtx : Bank Vec4) : TVertex :=
  let at' := fun i => bankGet .zero vtx i
  let p := matrixVec composite (at' 0)
  ⟨fDiv p.x p.w, fDiv p.y p.w, p.w, mkParams (fDiv p.z p.w) (at' 3) (at' 9) (at' 10) (at' 11) (at' 12)⟩

/-- What the rasterizer and the pixel stage read (R660). -/
def drawOf (s : State) : Draw :=
  { who := who s, surf := s.surf, pix := s.pix, tex := s.tex, cmb := s.cmb, wEps := s.par.wEps
    off := if s.vp.mode then s.xf.vpOffset else .zero, dxt35Mode := s.par.dxt35Mode, enums := s.par.enums }

/-- The transform that `emit` takes (R255): the transformed vertex, the vertex-program unit and the bus after it. -/
def transformVertex (s : State) (vtx : Bank Vec4) : Except Refusal (TVertex × VProg × Bus) :=
  if s.vp.mode then vpTransform s.par (who s) vtx s.vp s.bus else .ok (ffTransform s.xf.composite vtx, s.vp, s.bus)

/-- `emit(vtx)` (R255). -/
def emit (vtx : Bank Vec4) (s : State) : Except Refusal State :=
  if s.prim.primType = 0 then .ok (s.raise .vertexOutsideBegin)
  else
    (transformVertex s vtx).bind fun t =>
      (assemble (drawOf s) s.prim t.1 t.2.2).map fun a => { s with vp := t.2.1, prim := a.1, bus := a.2 }

/-- `emit(pvtx)` (R256 to R260). -/
def emitPersistent (s : State) : Except Refusal State := emit s.pvtx s

/-- `emit(fetch_vertex(n))` (R262 to R264). -/
def emitIndexed (n : Word) (s : State) : Except Refusal State :=
  let r := fetchVertex (who s) s.va s.pvtx n s.bus
  emit r.1 { s with bus := r.2 }

/-- `emit(fetch_vertex(start + k))` for `count` values of k (R264). -/
def emitRange (start : Word) : (count : Nat) → State → Except Refusal State
  | 0, s => .ok s
  | count + 1, s => (emitIndexed start s).bind (emitRange (start + 1) count)

/-- One component of the persistent vertex (R256 to R258). -/
def State.setAttr (s : State) (slot : Nat) (c : BitVec 2) (d : Word) : State :=
  { s with pvtx := bankSet .zero s.pvtx slot (Vec4.set (bankGet .zero s.pvtx slot) c d) }

/-- A whole attribute of the persistent vertex (R259, R260). -/
def State.setAttrVec (s : State) (slot : Nat) (v : Vec4) : State := { s with pvtx := bankSet .zero s.pvtx slot v }

/-- `emit(pvtx)` where the method says so. -/
def emitWhen (c : Bool) (s : State) : Run := if c then Run.ofExcept (emitPersistent s) else .next s

/-- Components 0 and 1 of an attribute (R259). -/
def pairXy (v : Vec4) (x y : Word) : Vec4 := { v with x := x, y := y }

/-- Components 2 and 3 of an attribute (R259). -/
def pairZw (v : Vec4) (z w : Word) : Vec4 := { v with z := z, w := w }

/-- The signed 16-bit halves of a data word as binary32 (R259). -/
def shortLo (d : Word) : Word := fOfInt (lo16 d).toInt
def shortHi (d : Word) : Word := fOfInt (hi16 d).toInt

/-- The word stored at `ibuf[ibuf_n]` and the count advanced (R265); past index 63 nothing is held: assumption log 14. -/
def inlinePush (va : VertexArrays) (d : Word) : VertexArrays :=
  { va with ibuf := if va.ibufN < 64 then bankSet 0 va.ibuf va.ibufN.toNat d else va.ibuf, ibufN := va.ibufN + 1 }

/-- The inline buffer holds a whole vertex (R265). -/
def inlineFull (va : VertexArrays) : Bool := decide (va.ibufN.toNat = vaTotal va)

/-- INLINE_ARRAY's vertex (R265): decoded and emitted, and the buffer emptied. -/
def emitInline (s : State) : Except Refusal State :=
  let r := inlineVertex (who s) s.va s.pvtx s.bus
  (emit r.1 { s with bus := r.2 }).map fun t => { t with va := { t.va with ibufN := 0 } }

end Sys2Proof.Machine
end

