-- ==== Sys2Proof/Machine/VertexMethods.lean ====
section
/-! DEFINITION. The vertex array, vertex push, draw and primitive methods (R250 to R270). -/

namespace Sys2Proof.Machine
open Sys2Proof

/-- Vertex-array slot `i` replaced by `f` of it (R41). -/
def updSlot (va : VertexArrays) (i : Nat) (f : VaSlot → VaSlot) : VertexArrays :=
  { va with slots := bankSet .init va.slots i (f (bankGet .init va.slots i)) }

/-- VERTEX_DATA_ARRAY_OFFSET (R250). -/
def setVaOffset (i : Nat) (d : Word) (va : VertexArrays) : VertexArrays := updSlot va i fun v => { v with offset := d }

/-- VERTEX_DATA_ARRAY_FORMAT (R251); the word counts are derived (R253). -/
def setVaFormat (i : Nat) (d : Word) (va : VertexArrays) : VertexArrays :=
  { updSlot va i fun v => { v with type := d.extractLsb' 0 4, size := d.extractLsb' 4 4, stride := d.extractLsb' 8 24 } with
    ibufN := 0 }

/-- VERTEX_DATA_ARRAY_OFFSET(0) (R250). -/
def execVertexDataArrayOffset0 (d : Word) (s : State) : Run :=
  .next { s with va := setVaOffset 0 d s.va }

/-- VERTEX_DATA_ARRAY_OFFSET(1) (R250). -/
def execVertexDataArrayOffset1 (d : Word) (s : State) : Run :=
  .next { s with va := setVaOffset 1 d s.va }

/-- VERTEX_DATA_ARRAY_OFFSET(2) (R250). -/
def execVertexDataArrayOffset2 (d : Word) (s : State) : Run :=
  .next { s with va := setVaOffset 2 d s.va }

/-- VERTEX_DATA_ARRAY_OFFSET(3) (R250). -/
def execVertexDataArrayOffset3 (d : Word) (s : State) : Run :=
  .next { s with va := setVaOffset 3 d s.va }

/-- VERTEX_DATA_ARRAY_OFFSET(4) (R250). -/
def execVertexDataArrayOffset4 (d : Word) (s : State) : Run :=
  .next { s with va := setVaOffset 4 d s.va }

/-- VERTEX_DATA_ARRAY_OFFSET(5) (R250). -/
def execVertexDataArrayOffset5 (d : Word) (s : State) : Run :=
  .next { s with va := setVaOffset 5 d s.va }

/-- VERTEX_DATA_ARRAY_OFFSET(6) (R250). -/
def execVertexDataArrayOffset6 (d : Word) (s : State) : Run :=
  .next { s with va := setVaOffset 6 d s.va }

/-- VERTEX_DATA_ARRAY_OFFSET(7) (R250). -/
def execVertexDataArrayOffset7 (d : Word) (s : State) : Run :=
  .next { s with va := setVaOffset 7 d s.va }

/-- VERTEX_DATA_ARRAY_OFFSET(8) (R250). -/
def execVertexDataArrayOffset8 (d : Word) (s : State) : Run :=
  .next { s with va := setVaOffset 8 d s.va }

/-- VERTEX_DATA_ARRAY_OFFSET(9) (R250). -/
def execVertexDataArrayOffset9 (d : Word) (s : State) : Run :=
  .next { s with va := setVaOffset 9 d s.va }

/-- VERTEX_DATA_ARRAY_OFFSET(10) (R250). -/
def execVertexDataArrayOffset10 (d : Word) (s : State) : Run :=
  .next { s with va := setVaOffset 10 d s.va }

/-- VERTEX_DATA_ARRAY_OFFSET(11) (R250). -/
def execVertexDataArrayOffset11 (d : Word) (s : State) : Run :=
  .next { s with va := setVaOffset 11 d s.va }

/-- VERTEX_DATA_ARRAY_OFFSET(12) (R250). -/
def execVertexDataArrayOffset12 (d : Word) (s : State) : Run :=
  .next { s with va := setVaOffset 12 d s.va }

/-- VERTEX_DATA_ARRAY_OFFSET(13) (R250). -/
def execVertexDataArrayOffset13 (d : Word) (s : State) : Run :=
  .next { s with va := setVaOffset 13 d s.va }

/-- VERTEX_DATA_ARRAY_OFFSET(14) (R250). -/
def execVertexDataArrayOffset14 (d : Word) (s : State) : Run :=
  .next { s with va := setVaOffset 14 d s.va }

/-- VERTEX_DATA_ARRAY_OFFSET(15) (R250). -/
def execVertexDataArrayOffset15 (d : Word) (s : State) : Run :=
  .next { s with va := setVaOffset 15 d s.va }

/-- VERTEX_DATA_ARRAY_FORMAT(0) (R251). -/
def execVertexDataArrayFormat0 (d : Word) (s : State) : Run :=
  .next { s with va := setVaFormat 0 d s.va }

/-- VERTEX_DATA_ARRAY_FORMAT(1) (R251). -/
def execVertexDataArrayFormat1 (d : Word) (s : State) : Run :=
  .next { s with va := setVaFormat 1 d s.va }

/-- VERTEX_DATA_ARRAY_FORMAT(2) (R251). -/
def execVertexDataArrayFormat2 (d : Word) (s : State) : Run :=
  .next { s with va := setVaFormat 2 d s.va }

/-- VERTEX_DATA_ARRAY_FORMAT(3) (R251). -/
def execVertexDataArrayFormat3 (d : Word) (s : State) : Run :=
  .next { s with va := setVaFormat 3 d s.va }

/-- VERTEX_DATA_ARRAY_FORMAT(4) (R251). -/
def execVertexDataArrayFormat4 (d : Word) (s : State) : Run :=
  .next { s with va := setVaFormat 4 d s.va }

/-- VERTEX_DATA_ARRAY_FORMAT(5) (R251). -/
def execVertexDataArrayFormat5 (d : Word) (s : State) : Run :=
  .next { s with va := setVaFormat 5 d s.va }

/-- VERTEX_DATA_ARRAY_FORMAT(6) (R251). -/
def execVertexDataArrayFormat6 (d : Word) (s : State) : Run :=
  .next { s with va := setVaFormat 6 d s.va }

/-- VERTEX_DATA_ARRAY_FORMAT(7) (R251). -/
def execVertexDataArrayFormat7 (d : Word) (s : State) : Run :=
  .next { s with va := setVaFormat 7 d s.va }

/-- VERTEX_DATA_ARRAY_FORMAT(8) (R251). -/
def execVertexDataArrayFormat8 (d : Word) (s : State) : Run :=
  .next { s with va := setVaFormat 8 d s.va }

/-- VERTEX_DATA_ARRAY_FORMAT(9) (R251). -/
def execVertexDataArrayFormat9 (d : Word) (s : State) : Run :=
  .next { s with va := setVaFormat 9 d s.va }

/-- VERTEX_DATA_ARRAY_FORMAT(10) (R251). -/
def execVertexDataArrayFormat10 (d : Word) (s : State) : Run :=
  .next { s with va := setVaFormat 10 d s.va }

/-- VERTEX_DATA_ARRAY_FORMAT(11) (R251). -/
def execVertexDataArrayFormat11 (d : Word) (s : State) : Run :=
  .next { s with va := setVaFormat 11 d s.va }

/-- VERTEX_DATA_ARRAY_FORMAT(12) (R251). -/
def execVertexDataArrayFormat12 (d : Word) (s : State) : Run :=
  .next { s with va := setVaFormat 12 d s.va }

/-- VERTEX_DATA_ARRAY_FORMAT(13) (R251). -/
def execVertexDataArrayFormat13 (d : Word) (s : State) : Run :=
  .next { s with va := setVaFormat 13 d s.va }

/-- VERTEX_DATA_ARRAY_FORMAT(14) (R251). -/
def execVertexDataArrayFormat14 (d : Word) (s : State) : Run :=
  .next { s with va := setVaFormat 14 d s.va }

/-- VERTEX_DATA_ARRAY_FORMAT(15) (R251). -/
def execVertexDataArrayFormat15 (d : Word) (s : State) : Run :=
  .next { s with va := setVaFormat 15 d s.va }

/-- VERTEX3F(0) (R256). -/
def execVertex3f0 (d : Word) (s : State) : Run :=
  .next (s.setAttr 0 0 d)

/-- VERTEX3F(1) (R256). -/
def execVertex3f1 (d : Word) (s : State) : Run :=
  .next (s.setAttr 0 1 d)

/-- VERTEX3F(2) (R256): w becomes 1.0 and the vertex is emitted. -/
def execVertex3f2 (d : Word) (s : State) : Run :=
  Run.ofExcept (emitPersistent ((s.setAttr 0 2 d).setAttr 0 3 fOne))

/-- VERTEX4F(0) (R257). -/
def execVertex4f0 (d : Word) (s : State) : Run :=
  .next (s.setAttr 0 0 d)

/-- VERTEX4F(1) (R257). -/
def execVertex4f1 (d : Word) (s : State) : Run :=
  .next (s.setAttr 0 1 d)

/-- VERTEX4F(2) (R257). -/
def execVertex4f2 (d : Word) (s : State) : Run :=
  .next (s.setAttr 0 2 d)

/-- VERTEX4F(3) (R257): the vertex is emitted. -/
def execVertex4f3 (d : Word) (s : State) : Run :=
  Run.ofExcept (emitPersistent (s.setAttr 0 3 d))

/-- VERTEX_DATA2F_M (R258). -/
def execVertexData2fM (slot : BitVec 4) (c : BitVec 1) (d : Word) (s : State) : Run :=
  if c = 0 then .next (s.setAttr slot.toNat 0 d)
  else emitWhen (slot = 0) (((s.setAttr slot.toNat 1 d).setAttr slot.toNat 2 0).setAttr slot.toNat 3 fOne)

/-- VERTEX_DATA4F_M (R258). -/
def execVertexData4fM (slot : BitVec 4) (c : BitVec 2) (d : Word) (s : State) : Run :=
  emitWhen (slot = 0 && c = 3) (s.setAttr slot.toNat c d)

/-- VERTEX_DATA2S (R259). -/
def execVertexData2s (slot : BitVec 4) (d : Word) (s : State) : Run :=
  emitWhen (slot = 0) (s.setAttrVec slot.toNat ⟨shortLo d, shortHi d, 0, fOne⟩)

/-- VERTEX_DATA4S_M (R259). -/
def execVertexData4sM (slot : BitVec 4) (c : BitVec 1) (d : Word) (s : State) : Run :=
  let v := bankGet .zero s.pvtx slot.toNat
  if c = 0 then .next (s.setAttrVec slot.toNat (pairXy v (shortLo d) (shortHi d)))
  else emitWhen (slot = 0) (s.setAttrVec slot.toNat (pairZw v (shortLo d) (shortHi d)))

/-- VERTEX_DATA4UB (R260). -/
def execVertexData4ub (slot : BitVec 4) (d : Word) (s : State) : Run :=
  emitWhen (slot = 0)
    (s.setAttrVec slot.toNat ⟨from8 (byteOf d 0), from8 (byteOf d 1), from8 (byteOf d 2), from8 (byteOf d 3)⟩)

/-- ARRAY_ELEMENT16 (R262). -/
def execArrayElement16 (d : Word) (s : State) : Run :=
  Run.ofExcept ((emitIndexed ((lo16 d).setWidth 32) s).bind (emitIndexed ((hi16 d).setWidth 32)))

/-- ARRAY_ELEMENT32 (R263). -/
def execArrayElement32 (d : Word) (s : State) : Run :=
  Run.ofExcept (emitIndexed d s)

/-- DRAW_ARRAYS (R264). -/
def execDrawArrays (d : Word) (s : State) : Run :=
  Run.ofExcept (emitRange ((d.extractLsb' 0 24).setWidth 32) ((byteOf d 3).toNat + 1) s)

/-- INLINE_ARRAY (R265). -/
def execInlineArray (d : Word) (s : State) : Run :=
  if vaTotal s.va = 0 then .next (s.raise .emptyLayout)
  else
    let t := { s with va := inlinePush s.va d }
    if inlineFull t.va then Run.ofExcept (emitInline t) else .next t

/-- Pixel-shader selection (R390). -/
def selectShader (s : State) : Shader :=
  if s.cmb.stages ≠ 0 then .combiner else if (bankGet .init s.tex 0).enable then .tex0 else .flat

/-- The topology a begin stores (R270). -/
def beginType (d : Word) : BitVec 4 := if d.toNat ≤ 10 then d.extractLsb' 0 4 else 15

/-- BEGIN_END (R270). -/
def execBeginEnd (d : Word) (s : State) : Run :=
  if d = 0 then .next { s with prim := { s.prim with primType := 0 } }
  else
    let t := { s with prim := { s.prim with primType := beginType d, vcount := 0, rsel := selectShader s } }
    .next (if 10 < d.toNat then t.raise .unsupportedTopology else t)

end Sys2Proof.Machine
end

