-- ==== Sys2Proof/Machine/Dispatch.lean ====
section
/-! DEFINITION. One arm per instruction: the meaning each constructor of `Instr` has. -/

namespace Sys2Proof.Machine
open Sys2Proof

def exec (i : Instr) (s : State) : Host.Outcome State Fault Refusal :=
  match i with
  | .jump target => Sys2Proof.Machine.execJump target s
  | .call target => Sys2Proof.Machine.execCall target s
  | .increasing mthd subc count => Sys2Proof.Machine.execIncreasing mthd subc count s
  | .nonincreasing mthd subc count => Sys2Proof.Machine.execNonincreasing mthd subc count s
  | .longNonincreasing mthd subc => Sys2Proof.Machine.execLongNonincreasing mthd subc s
  | .ret => Sys2Proof.Machine.execRet s
  | .oldJump target => Sys2Proof.Machine.execOldJump target s
  | .sliConditional ignored => Sys2Proof.Machine.execSliConditional ignored s
  | .invalid word => Sys2Proof.Machine.execInvalid word s
  | .bindObject handle => Sys2Proof.Machine.execBindObject handle s
  | .noOperation d => Sys2Proof.Machine.execNoOperation d s
  | .waitForVblank d => Sys2Proof.Machine.execWaitForVblank d s
  | .surfaceClipHorizontal d => Sys2Proof.Machine.execSurfaceClipHorizontal d s
  | .surfaceClipVertical d => Sys2Proof.Machine.execSurfaceClipVertical d s
  | .surfaceFormat d => Sys2Proof.Machine.execSurfaceFormat d s
  | .surfacePitch d => Sys2Proof.Machine.execSurfacePitch d s
  | .surfaceColorOffset d => Sys2Proof.Machine.execSurfaceColorOffset d s
  | .surfaceZetaOffset d => Sys2Proof.Machine.execSurfaceZetaOffset d s
  | .combinerAlphaIcw stage d => Sys2Proof.Machine.execCombinerAlphaIcw stage d s
  | .combinerSpecularFogCw0 d => Sys2Proof.Machine.execCombinerSpecularFogCw0 d s
  | .combinerSpecularFogCw1 d => Sys2Proof.Machine.execCombinerSpecularFogCw1 d s
  | .alphaTestEnable d => Sys2Proof.Machine.execAlphaTestEnable d s
  | .blendEnable d => Sys2Proof.Machine.execBlendEnable d s
  | .depthTestEnable d => Sys2Proof.Machine.execDepthTestEnable d s
  | .stencilTestEnable d => Sys2Proof.Machine.execStencilTestEnable d s
  | .alphaFunc d => Sys2Proof.Machine.execAlphaFunc d s
  | .alphaRef d => Sys2Proof.Machine.execAlphaRef d s
  | .blendFuncSfactor d => Sys2Proof.Machine.execBlendFuncSfactor d s
  | .blendFuncDfactor d => Sys2Proof.Machine.execBlendFuncDfactor d s
  | .blendColor d => Sys2Proof.Machine.execBlendColor d s
  | .blendEquation d => Sys2Proof.Machine.execBlendEquation d s
  | .depthFunc d => Sys2Proof.Machine.execDepthFunc d s
  | .colorMask d => Sys2Proof.Machine.execColorMask d s
  | .depthMask d => Sys2Proof.Machine.execDepthMask d s
  | .stencilMask d => Sys2Proof.Machine.execStencilMask d s
  | .stencilFunc d => Sys2Proof.Machine.execStencilFunc d s
  | .stencilFuncRef d => Sys2Proof.Machine.execStencilFuncRef d s
  | .stencilFuncMask d => Sys2Proof.Machine.execStencilFuncMask d s
  | .stencilOpFail d => Sys2Proof.Machine.execStencilOpFail d s
  | .stencilOpZfail d => Sys2Proof.Machine.execStencilOpZfail d s
  | .stencilOpZpass d => Sys2Proof.Machine.execStencilOpZpass d s
  | .projectionMatrix k d => Sys2Proof.Machine.execProjectionMatrix k d s
  | .modelViewMatrix k d => Sys2Proof.Machine.execModelViewMatrix k d s
  | .inverseModelViewMatrix k d => Sys2Proof.Machine.execInverseModelViewMatrix k d s
  | .compositeMatrix k d => Sys2Proof.Machine.execCompositeMatrix k d s
  | .viewportOffset k d => Sys2Proof.Machine.execViewportOffset k d s
  | .combinerFactor0 stage d => Sys2Proof.Machine.execCombinerFactor0 stage d s
  | .combinerFactor1 stage d => Sys2Proof.Machine.execCombinerFactor1 stage d s
  | .combinerAlphaOcw stage d => Sys2Proof.Machine.execCombinerAlphaOcw stage d s
  | .combinerColorIcw stage d => Sys2Proof.Machine.execCombinerColorIcw stage d s
  | .viewportScale k d => Sys2Proof.Machine.execViewportScale k d s
  | .transformProgram j d => Sys2Proof.Machine.execTransformProgram j d s
  | .transformConstant j d => Sys2Proof.Machine.execTransformConstant j d s
  | .vertex3f0 d => Sys2Proof.Machine.execVertex3f0 d s
  | .vertex3f1 d => Sys2Proof.Machine.execVertex3f1 d s
  | .vertex3f2 d => Sys2Proof.Machine.execVertex3f2 d s
  | .vertex4f0 d => Sys2Proof.Machine.execVertex4f0 d s
  | .vertex4f1 d => Sys2Proof.Machine.execVertex4f1 d s
  | .vertex4f2 d => Sys2Proof.Machine.execVertex4f2 d s
  | .vertex4f3 d => Sys2Proof.Machine.execVertex4f3 d s
  | .vertexDataArrayOffset0 d => Sys2Proof.Machine.execVertexDataArrayOffset0 d s
  | .vertexDataArrayOffset1 d => Sys2Proof.Machine.execVertexDataArrayOffset1 d s
  | .vertexDataArrayOffset2 d => Sys2Proof.Machine.execVertexDataArrayOffset2 d s
  | .vertexDataArrayOffset3 d => Sys2Proof.Machine.execVertexDataArrayOffset3 d s
  | .vertexDataArrayOffset4 d => Sys2Proof.Machine.execVertexDataArrayOffset4 d s
  | .vertexDataArrayOffset5 d => Sys2Proof.Machine.execVertexDataArrayOffset5 d s
  | .vertexDataArrayOffset6 d => Sys2Proof.Machine.execVertexDataArrayOffset6 d s
  | .vertexDataArrayOffset7 d => Sys2Proof.Machine.execVertexDataArrayOffset7 d s
  | .vertexDataArrayOffset8 d => Sys2Proof.Machine.execVertexDataArrayOffset8 d s
  | .vertexDataArrayOffset9 d => Sys2Proof.Machine.execVertexDataArrayOffset9 d s
  | .vertexDataArrayOffset10 d => Sys2Proof.Machine.execVertexDataArrayOffset10 d s
  | .vertexDataArrayOffset11 d => Sys2Proof.Machine.execVertexDataArrayOffset11 d s
  | .vertexDataArrayOffset12 d => Sys2Proof.Machine.execVertexDataArrayOffset12 d s
  | .vertexDataArrayOffset13 d => Sys2Proof.Machine.execVertexDataArrayOffset13 d s
  | .vertexDataArrayOffset14 d => Sys2Proof.Machine.execVertexDataArrayOffset14 d s
  | .vertexDataArrayOffset15 d => Sys2Proof.Machine.execVertexDataArrayOffset15 d s
  | .vertexDataArrayFormat0 d => Sys2Proof.Machine.execVertexDataArrayFormat0 d s
  | .vertexDataArrayFormat1 d => Sys2Proof.Machine.execVertexDataArrayFormat1 d s
  | .vertexDataArrayFormat2 d => Sys2Proof.Machine.execVertexDataArrayFormat2 d s
  | .vertexDataArrayFormat3 d => Sys2Proof.Machine.execVertexDataArrayFormat3 d s
  | .vertexDataArrayFormat4 d => Sys2Proof.Machine.execVertexDataArrayFormat4 d s
  | .vertexDataArrayFormat5 d => Sys2Proof.Machine.execVertexDataArrayFormat5 d s
  | .vertexDataArrayFormat6 d => Sys2Proof.Machine.execVertexDataArrayFormat6 d s
  | .vertexDataArrayFormat7 d => Sys2Proof.Machine.execVertexDataArrayFormat7 d s
  | .vertexDataArrayFormat8 d => Sys2Proof.Machine.execVertexDataArrayFormat8 d s
  | .vertexDataArrayFormat9 d => Sys2Proof.Machine.execVertexDataArrayFormat9 d s
  | .vertexDataArrayFormat10 d => Sys2Proof.Machine.execVertexDataArrayFormat10 d s
  | .vertexDataArrayFormat11 d => Sys2Proof.Machine.execVertexDataArrayFormat11 d s
  | .vertexDataArrayFormat12 d => Sys2Proof.Machine.execVertexDataArrayFormat12 d s
  | .vertexDataArrayFormat13 d => Sys2Proof.Machine.execVertexDataArrayFormat13 d s
  | .vertexDataArrayFormat14 d => Sys2Proof.Machine.execVertexDataArrayFormat14 d s
  | .vertexDataArrayFormat15 d => Sys2Proof.Machine.execVertexDataArrayFormat15 d s
  | .logicOpEnable d => Sys2Proof.Machine.execLogicOpEnable d s
  | .logicOp d => Sys2Proof.Machine.execLogicOp d s
  | .beginEnd d => Sys2Proof.Machine.execBeginEnd d s
  | .arrayElement16 d => Sys2Proof.Machine.execArrayElement16 d s
  | .arrayElement32 d => Sys2Proof.Machine.execArrayElement32 d s
  | .drawArrays d => Sys2Proof.Machine.execDrawArrays d s
  | .inlineArray d => Sys2Proof.Machine.execInlineArray d s
  | .vertexData2fM slot c d => Sys2Proof.Machine.execVertexData2fM slot c d s
  | .vertexData2s slot d => Sys2Proof.Machine.execVertexData2s slot d s
  | .vertexData4ub slot d => Sys2Proof.Machine.execVertexData4ub slot d s
  | .vertexData4sM slot c d => Sys2Proof.Machine.execVertexData4sM slot c d s
  | .vertexData4fM slot c d => Sys2Proof.Machine.execVertexData4fM slot c d s
  | .textureOffset0 d => Sys2Proof.Machine.execTextureOffset0 d s
  | .textureOffset1 d => Sys2Proof.Machine.execTextureOffset1 d s
  | .textureOffset2 d => Sys2Proof.Machine.execTextureOffset2 d s
  | .textureOffset3 d => Sys2Proof.Machine.execTextureOffset3 d s
  | .textureFormat0 d => Sys2Proof.Machine.execTextureFormat0 d s
  | .textureFormat1 d => Sys2Proof.Machine.execTextureFormat1 d s
  | .textureFormat2 d => Sys2Proof.Machine.execTextureFormat2 d s
  | .textureFormat3 d => Sys2Proof.Machine.execTextureFormat3 d s
  | .textureAddress0 d => Sys2Proof.Machine.execTextureAddress0 d s
  | .textureAddress1 d => Sys2Proof.Machine.execTextureAddress1 d s
  | .textureAddress2 d => Sys2Proof.Machine.execTextureAddress2 d s
  | .textureAddress3 d => Sys2Proof.Machine.execTextureAddress3 d s
  | .textureControl0N0 d => Sys2Proof.Machine.execTextureControl0N0 d s
  | .textureControl0N1 d => Sys2Proof.Machine.execTextureControl0N1 d s
  | .textureControl0N2 d => Sys2Proof.Machine.execTextureControl0N2 d s
  | .textureControl0N3 d => Sys2Proof.Machine.execTextureControl0N3 d s
  | .textureControl1N0 d => Sys2Proof.Machine.execTextureControl1N0 d s
  | .textureControl1N1 d => Sys2Proof.Machine.execTextureControl1N1 d s
  | .textureControl1N2 d => Sys2Proof.Machine.execTextureControl1N2 d s
  | .textureControl1N3 d => Sys2Proof.Machine.execTextureControl1N3 d s
  | .textureImageRect0 d => Sys2Proof.Machine.execTextureImageRect0 d s
  | .textureImageRect1 d => Sys2Proof.Machine.execTextureImageRect1 d s
  | .textureImageRect2 d => Sys2Proof.Machine.execTextureImageRect2 d s
  | .textureImageRect3 d => Sys2Proof.Machine.execTextureImageRect3 d s
  | .zstencilClearValue d => Sys2Proof.Machine.execZstencilClearValue d s
  | .colorClearValue d => Sys2Proof.Machine.execColorClearValue d s
  | .clearSurface d => Sys2Proof.Machine.execClearSurface d s
  | .clearRectHorizontal d => Sys2Proof.Machine.execClearRectHorizontal d s
  | .clearRectVertical d => Sys2Proof.Machine.execClearRectVertical d s
  | .specularFogFactor k d => Sys2Proof.Machine.execSpecularFogFactor k d s
  | .combinerColorOcw stage d => Sys2Proof.Machine.execCombinerColorOcw stage d s
  | .combinerControl d => Sys2Proof.Machine.execCombinerControl d s
  | .transformExecutionMode d => Sys2Proof.Machine.execTransformExecutionMode d s
  | .transformProgramLoad d => Sys2Proof.Machine.execTransformProgramLoad d s
  | .transformProgramStart d => Sys2Proof.Machine.execTransformProgramStart d s
  | .transformConstantLoad d => Sys2Proof.Machine.execTransformConstantLoad d s
  | .vpNop sop f => Sys2Proof.Machine.execVpNop sop f s
  | .vpMov sop f => Sys2Proof.Machine.execVpMov sop f s
  | .vpMul sop f => Sys2Proof.Machine.execVpMul sop f s
  | .vpAdd sop f => Sys2Proof.Machine.execVpAdd sop f s
  | .vpMad sop f => Sys2Proof.Machine.execVpMad sop f s
  | .vpDp3 sop f => Sys2Proof.Machine.execVpDp3 sop f s
  | .vpDph sop f => Sys2Proof.Machine.execVpDph sop f s
  | .vpDp4 sop f => Sys2Proof.Machine.execVpDp4 sop f s
  | .vpDst sop f => Sys2Proof.Machine.execVpDst sop f s
  | .vpMin sop f => Sys2Proof.Machine.execVpMin sop f s
  | .vpMax sop f => Sys2Proof.Machine.execVpMax sop f s
  | .vpSlt sop f => Sys2Proof.Machine.execVpSlt sop f s
  | .vpSge sop f => Sys2Proof.Machine.execVpSge sop f s
  | .vpArl sop f => Sys2Proof.Machine.execVpArl sop f s
  | .vpSNop vop f => Sys2Proof.Machine.execVpSNop vop f s
  | .vpSImv vop f => Sys2Proof.Machine.execVpSImv vop f s
  | .vpSRcp vop f => Sys2Proof.Machine.execVpSRcp vop f s
  | .vpSRcc vop f => Sys2Proof.Machine.execVpSRcc vop f s
  | .vpSRsq vop f => Sys2Proof.Machine.execVpSRsq vop f s
  | .vpSExp vop f => Sys2Proof.Machine.execVpSExp vop f s
  | .vpSLog vop f => Sys2Proof.Machine.execVpSLog vop f s
  | .vpSLit vop f => Sys2Proof.Machine.execVpSLit vop f s

end Sys2Proof.Machine
end

