-- ==== Sys2Proof/Machine/Cycle.lean ====
section
/-! DEFINITION. The puller step (R160, R167, R170) and the choice of the agent that moves (R94, R671). -/

namespace Sys2Proof.Machine
open Sys2Proof

/-- `exec_method` (R167) for the data word `d` of the burst in progress: store, then act where the bound class is `KELVIN_CLASS` and
the map holds the address. -/
def methodWrite (d : Word) (s : State) : Run :=
  let b := (curChan s).burst
  let s1 := s.setReg s.cur b.subc b.mthd d
  if (subAt s1 s1.cur b.subc).cls = s1.par.kelvinClass then
    match decodeMethodBy s1.par.tables.methodMap b.mthd d with
    | some i => exec i s1
    | none => .next s1
  else .next s1

/-- `data_word(ch, d)` (R170). -/
def dataWord (d : Word) (s : State) : Run := (methodWrite d s).andThen fun t => .next (advanceBurst t)

/-- What a fetched word is, and what it does (R160). -/
def processWord (w : Word) (s : State) : Run :=
  let b := (curChan s).burst
  if b.lpend then longCount w s
  else if b.count = 0 then exec (decodeCommandBy s.par.tables.cmdDecode w) s
  else if b.bind then exec (.bindObject w) s
  else dataWord w s

/-- The puller step of channel `ch` is enabled (R160). -/
def enabled (s : State) (ch : BitVec 5) : Bool :=
  decide ((chanAt s ch).pstate = .run) && decide ((chanAt s ch).get ≠ (chanAt s ch).put)

/-- The address of the channel's next word (R99). -/
def fetchAddr (s : State) (ch : BitVec 5) : Word := pbBase s ch + (chanAt s ch).get

/-- The fetch (R160): the word at `PB_BASE + GET`, read before `GET` moves past it. -/
def fetchWord (s : State) : Word × State :=
  let r := memReadWord (who s) 4 (fetchAddr s s.cur) s.bus
  (r.1, { s with bus := r.2 }.setGet ((curChan s).get + 4))

/-- One puller step of channel `ch` (R160); a channel that is not enabled has no step, and nothing changes. -/
def pullerStep (ch : BitVec 5) (s : State) : Run :=
  if enabled s ch then
    let r := fetchWord { s with cur := ch }
    processWord r.1 r.2
  else .next s

/-- The move of one agent. -/
def agentStep (a : Agent) (s : State) : Run :=
  match a with
  | .puller ch => pullerStep ch s
  | .vblank => .next (vblankEvent s)
  | .mmioWrite addr bytes v => hostMmioWrite addr bytes v s
  | .mmioRead addr bytes => hostMmioRead addr bytes s
  | .memWrite addr data => .next (hostMemWrite addr data s)
  | .placeObject ch handle o => .next (hostPlaceObject ch handle o s)

/-- The lowest-numbered channel whose puller step is enabled. -/
def firstEnabled (s : State) : Option (BitVec 5) := ((List.range 32).map (BitVec.ofNat 5)).find? fun ch => enabled s ch

/-- One step of the block: the first move of the agenda, or, where the agenda is empty, the puller step of the lowest-numbered enabled
channel; nothing where there is none. -/
def cycle (s : State) : Run :=
  match s.agenda with
  | a :: rest => agentStep a { s with agenda := rest }
  | [] =>
    match firstEnabled s with
    | some ch => pullerStep ch s
    | none => .next s

/-! ### Placing one instruction -/

/-- The bytes of a word written from address `a` on, with no check of `PHYS_SIZE`. -/
def placeWord (a w : Word) (m : Memory) : Memory := hostWriteBytes (2 ^ 32) a (bytesOfWord w) m

/-- Channel 0 made to take `w` as its next word with the burst `b` in progress, as the very next step. -/
def placeRingWord (w : Word) (b : Burst) (s : State) : State :=
  let g := (chanAt s 0).get
  { s.setChan 0 { put := g + 4, get := g, pstate := .run, burst := b } with
    bus := { s.bus with mem := placeWord (fetchAddr s 0) w s.bus.mem }
    agenda := [.puller 0] }

/-- Channel 0's subchannel 0 bound to the 3D class (R167). -/
def placeBinding (s : State) : State := { s with subs := bankSet .none s.subs (subIndex 0 0) ⟨0, s.par.kelvinClass⟩ }

/-- A burst of one data word for method index `m` on subchannel 0. -/
def placeBurst (m : BitVec 11) (bind : Bool) : Burst := ⟨m, 0, 1, false, bind, false⟩

/-- The vertex-program instruction at `vp_start`, program mode, a TRIANGLES primitive open. -/
def placeProgram (w0 w1 w2 w3 : Word) (s : State) : State :=
  let i := 4 * s.vp.start.toNat
  { s with
    vp := { s.vp with
      mode := true
      vpi := bankSet 0 (bankSet 0 (bankSet 0 (bankSet 0 s.vp.vpi i w0) (i + 1) w1) (i + 2) w2) (i + 3) w3 }
    prim := { s.prim with primType := 5, vcount := 0 } }

/-- The default decode tables, by which the placed words are written. -/
def placeTables (s : State) : State := { s with par := { s.par with tables := .init } }

/-- A slot's words placed where the next step takes them, in the default encodings: a command word or a data word in channel 0's ring; a
vertex-program instruction as the first of the program that the data word of VERTEX4F(3) runs. -/
def placeWords (slot : Slot) (ws : List Word) (s0 : State) : State :=
  let s := placeTables s0
  match slot, ws with
  | .command, [w] => placeRingWord w .none s
  | .bind, [w] => placeRingWord w (placeBurst 0 true) s
  | .method m, [d] => placeRingWord d (placeBurst m false) (placeBinding s)
  | .vector, [w0, w1, w2, w3] => placeRingWord 0 (placeBurst 0x549 false) (placeBinding (placeProgram w0 w1 w2 w3 s))
  | .scalar, [w0, w1, w2, w3] => placeRingWord 0 (placeBurst 0x549 false) (placeBinding (placeProgram w0 w1 w2 w3 s))
  | _, _ => s0

end Sys2Proof.Machine
end

