-- ==== Sys2Proof/Machine/Step.lean ====
section
/-! DEFINITION. The step of the machine and the placing of one instruction where the next step takes it. -/

namespace Sys2Proof.Machine
open Sys2Proof

/-- One step of the block (R671). -/
def step (s : State) : Host.Outcome State Fault Refusal := cycle s

/-- `s` with the instruction of one row of the opcode table where the very next step runs it: assumption log 21 says how a program comes
to run from `State.reset`. -/
def State.withFetchWord (s : State) (nbits w : Nat) : State := placeWords (tableRow nbits w).1 (tableRow nbits w).2 s

end Sys2Proof.Machine
end

