-- ==== Sys2Proof/WellFormed.lean ====
section
/-! DEFINITION. Which terms of `Instr` are instructions: an INVALID word matches no row of the command table (R110), a vertex-program
instruction has no reserved opcode in its other slot and no reserved kind in an operand it reads (R140). -/

namespace Sys2Proof

/-- The word matches no row of the command table (R110). -/
def isInvalidWord (w : Word) : Bool := decodeCommand w == .invalid w

/-- No operand that the two opcodes read has the reserved kind 0 (R132, R139, R140). -/
def kindsLegal (vop sop : BitVec 4) (f : VpFields) : Bool :=
  (!(vectorReads vop).1 || f.a.mux != 0) && (!(vectorReads vop).2.1 || f.b.mux != 0) &&
    (!((vectorReads vop).2.2 || scalarReads sop) || f.c.mux != 0)

/-- A vertex-program instruction that the unit gives a meaning (R137, R138, R140). -/
def vpLegal (vop sop : BitVec 4) (f : VpFields) : Bool := vop < 14 && sop < 8 && kindsLegal vop sop f

/-- The well-formed instructions. -/
def WellFormed : Instr → Bool
  | .invalid w => isInvalidWord w
  | .jump _ => true
  | .call _ => true
  | .increasing _ _ _ => true
  | .nonincreasing _ _ _ => true
  | .longNonincreasing _ _ => true
  | .ret => true
  | .oldJump _ => true
  | .sliConditional _ => true
  | .bindObject _ => true
  | .noOperation _ => true
  | .waitForVblank _ => true
  | .surfaceClipHorizontal _ => true
  | .surfaceClipVertical _ => true
  | .surfaceFormat _ => true
  | .surfacePitch _ => true
  | .surfaceColorOffset _ => true
  | .surfaceZetaOffset _ => true
  | .combinerAlphaIcw _ _ => true
  | .combinerSpecularFogCw0 _ => true
  | .combinerSpecularFogCw1 _ => true
  | .alphaTestEnable _ => true
  | .blendEnable _ => true
  | .depthTestEnable _ => true
  | .stencilTestEnable _ => true
  | .alphaFunc _ => true
  | .alphaRef _ => true
  | .blendFuncSfactor _ => true
  | .blendFuncDfactor _ => true
  | .blendColor _ => true
  | .blendEquation _ => true
  | .depthFunc _ => true
  | .colorMask _ => true
  | .depthMask _ => true
  | .stencilMask _ => true
  | .stencilFunc _ => true
  | .stencilFuncRef _ => true
  | .stencilFuncMask _ => true
  | .stencilOpFail _ => true
  | .stencilOpZfail _ => true
  | .stencilOpZpass _ => true
  | .projectionMatrix _ _ => true
  | .modelViewMatrix _ _ => true
  | .inverseModelViewMatrix _ _ => true
  | .compositeMatrix _ _ => true
  | .viewportOffset _ _ => true
  | .combinerFactor0 _ _ => true
  | .combinerFactor1 _ _ => true
  | .combinerAlphaOcw _ _ => true
  | .combinerColorIcw _ _ => true
  | .viewportScale _ _ => true
  | .transformProgram _ _ => true
  | .transformConstant _ _ => true
  | .vertex3f0 _ => true
  | .vertex3f1 _ => true
  | .vertex3f2 _ => true
  | .vertex4f0 _ => true
  | .vertex4f1 _ => true
  | .vertex4f2 _ => true
  | .vertex4f3 _ => true
  | .vertexDataArrayOffset0 _ => true
  | .vertexDataArrayOffset1 _ => true
  | .vertexDataArrayOffset2 _ => true
  | .vertexDataArrayOffset3 _ => true
  | .vertexDataArrayOffset4 _ => true
  | .vertexDataArrayOffset5 _ => true
  | .vertexDataArrayOffset6 _ => true
  | .vertexDataArrayOffset7 _ => true
  | .vertexDataArrayOffset8 _ => true
  | .vertexDataArrayOffset9 _ => true
  | .vertexDataArrayOffset10 _ => true
  | .vertexDataArrayOffset11 _ => true
  | .vertexDataArrayOffset12 _ => true
  | .vertexDataArrayOffset13 _ => true
  | .vertexDataArrayOffset14 _ => true
  | .vertexDataArrayOffset15 _ => true
  | .vertexDataArrayFormat0 _ => true
  | .vertexDataArrayFormat1 _ => true
  | .vertexDataArrayFormat2 _ => true
  | .vertexDataArrayFormat3 _ => true
  | .vertexDataArrayFormat4 _ => true
  | .vertexDataArrayFormat5 _ => true
  | .vertexDataArrayFormat6 _ => true
  | .vertexDataArrayFormat7 _ => true
  | .vertexDataArrayFormat8 _ => true
  | .vertexDataArrayFormat9 _ => true
  | .vertexDataArrayFormat10 _ => true
  | .vertexDataArrayFormat11 _ => true
  | .vertexDataArrayFormat12 _ => true
  | .vertexDataArrayFormat13 _ => true
  | .vertexDataArrayFormat14 _ => true
  | .vertexDataArrayFormat15 _ => true
  | .logicOpEnable _ => true
  | .logicOp _ => true
  | .beginEnd _ => true
  | .arrayElement16 _ => true
  | .arrayElement32 _ => true
  | .drawArrays _ => true
  | .inlineArray _ => true
  | .vertexData2fM _ _ _ => true
  | .vertexData2s _ _ => true
  | .vertexData4ub _ _ => true
  | .vertexData4sM _ _ _ => true
  | .vertexData4fM _ _ _ => true
  | .textureOffset0 _ => true
  | .textureOffset1 _ => true
  | .textureOffset2 _ => true
  | .textureOffset3 _ => true
  | .textureFormat0 _ => true
  | .textureFormat1 _ => true
  | .textureFormat2 _ => true
  | .textureFormat3 _ => true
  | .textureAddress0 _ => true
  | .textureAddress1 _ => true
  | .textureAddress2 _ => true
  | .textureAddress3 _ => true
  | .textureControl0N0 _ => true
  | .textureControl0N1 _ => true
  | .textureControl0N2 _ => true
  | .textureControl0N3 _ => true
  | .textureControl1N0 _ => true
  | .textureControl1N1 _ => true
  | .textureControl1N2 _ => true
  | .textureControl1N3 _ => true
  | .textureImageRect0 _ => true
  | .textureImageRect1 _ => true
  | .textureImageRect2 _ => true
  | .textureImageRect3 _ => true
  | .zstencilClearValue _ => true
  | .colorClearValue _ => true
  | .clearSurface _ => true
  | .clearRectHorizontal _ => true
  | .clearRectVertical _ => true
  | .specularFogFactor _ _ => true
  | .combinerColorOcw _ _ => true
  | .combinerControl _ => true
  | .transformExecutionMode _ => true
  | .transformProgramLoad _ => true
  | .transformProgramStart _ => true
  | .transformConstantLoad _ => true
  | .vpNop sop f => vpLegal 0 sop f
  | .vpMov sop f => vpLegal 1 sop f
  | .vpMul sop f => vpLegal 2 sop f
  | .vpAdd sop f => vpLegal 3 sop f
  | .vpMad sop f => vpLegal 4 sop f
  | .vpDp3 sop f => vpLegal 5 sop f
  | .vpDph sop f => vpLegal 6 sop f
  | .vpDp4 sop f => vpLegal 7 sop f
  | .vpDst sop f => vpLegal 8 sop f
  | .vpMin sop f => vpLegal 9 sop f
  | .vpMax sop f => vpLegal 10 sop f
  | .vpSlt sop f => vpLegal 11 sop f
  | .vpSge sop f => vpLegal 12 sop f
  | .vpArl sop f => vpLegal 13 sop f
  | .vpSNop vop f => vpLegal vop 0 f
  | .vpSImv vop f => vpLegal vop 1 f
  | .vpSRcp vop f => vpLegal vop 2 f
  | .vpSRcc vop f => vpLegal vop 3 f
  | .vpSRsq vop f => vpLegal vop 4 f
  | .vpSExp vop f => vpLegal vop 5 f
  | .vpSLog vop f => vpLegal vop 6 f
  | .vpSLit vop f => vpLegal vop 7 f

end Sys2Proof
end

