-- ==== Sys2Proof/Safety.lean ====
section
/-! DEFINITION. The terms that claims use: what keeps a draw from a refusal (R602), which bytes of memory the render target holds, and
the invariants of the block's state. -/

namespace Sys2Proof.Machine
open Sys2Proof

/-! ### What keeps a draw from a refusal -/

/-- The word is a member of an enumeration (R152). -/
def isMember {α : Type} (table : List (Word × α)) (w : Word) : Bool := (table.lookup w).isSome

/-- The place of a comparison in its enumeration (R152), from 0. -/
def compareCode : CompareFn → Nat
  | .never => 0
  | .less => 1
  | .equal => 2
  | .lequal => 3
  | .greater => 4
  | .notequal => 5
  | .gequal => 6
  | .always => 7

/-- The place of a logic operation in its enumeration (R152), from 0. -/
def logicCode : LogicFn → Nat
  | .clear => 0
  | .and => 1
  | .andReverse => 2
  | .copy => 3
  | .andInverted => 4
  | .noop => 5
  | .xor => 6
  | .or => 7
  | .nor => 8
  | .equiv => 9
  | .invert => 10
  | .orReverse => 11
  | .copyInverted => 12
  | .orInverted => 13
  | .nand => 14
  | .set => 15

/-- The factors are looked at by the blend equation (R560). -/
def usesFactors (e : Enums) (p : PixelState) : Bool :=
  e.equation.lookup p.blendEq != some .min && e.equation.lookup p.blendEq != some .max

/-- Every enumerated word that an enabled test or operation uses is a member of its enumeration (R598). -/
def enumsLegal (e : Enums) (p : PixelState) : Bool :=
  (!p.alphaTestEn || isMember e.compare p.alphaFunc) &&
    (!p.stencilTestEn ||
      (isMember e.compare p.stencilFunc && isMember e.stencil p.stencilOpFail && isMember e.stencil p.stencilOpZfail &&
        isMember e.stencil p.stencilOpZpass)) &&
    (!p.depthTestEn || isMember e.compare p.depthFunc) &&
    (!p.logicOpEn || isMember e.logic p.logicOp) &&
    (p.logicOpEn || !p.blendEn ||
      (isMember e.equation p.blendEq &&
        (!usesFactors e p || (isMember e.factor p.blendSfactor && isMember e.factor p.blendDfactor))))

/-- The word is one that an enabled test or operation uses, and no member of its enumeration (R598). -/
def enumOutside (e : Enums) (p : PixelState) (w : Word) : Prop :=
  (p.alphaTestEn = true ∧ w = p.alphaFunc ∧ isMember e.compare w = false) ∨
  (p.stencilTestEn = true ∧
    (w = p.stencilFunc ∧ isMember e.compare w = false ∨
      (w = p.stencilOpFail ∨ w = p.stencilOpZfail ∨ w = p.stencilOpZpass) ∧ isMember e.stencil w = false)) ∨
  (p.depthTestEn = true ∧ w = p.depthFunc ∧ isMember e.compare w = false) ∨
  (p.logicOpEn = true ∧ w = p.logicOp ∧ isMember e.logic w = false) ∨
  (p.logicOpEn = false ∧ p.blendEn = true ∧
    (w = p.blendEq ∧ isMember e.equation w = false ∨
      usesFactors e p = true ∧ (w = p.blendSfactor ∨ w = p.blendDfactor) ∧ isMember e.factor w = false))

/-- The register code of an input byte may be read in a general stage, and as E or F (R481, R488). -/
def stageCode (byte : BitVec 8) : Bool :=
  let c := byte.extractLsb' 0 4
  c != 6 && c != 7 && c != 14 && c != 15

/-- The register code of an input byte may be read as A to D or G of the final stage (R481, R489). -/
def finalCode (byte : BitVec 8) : Bool :=
  let c := byte.extractLsb' 0 4
  c != 6 && c != 7

/-- The four input bytes of a general stage's word may be read. -/
def icwLegal (w : Word) : Bool := stageCode (byteOf w 3) && stageCode (byteOf w 2) && stageCode (byteOf w 1) && stageCode (byteOf w 0)

/-- The output operation is not reserved (R486). -/
def ocwLegal (w : Word) : Bool := ocwOp w != 5 && ocwOp w != 7

/-- No enabled stage and no final input of the combiner is reserved (R481, R486). -/
def combinerLegal (c : Combiner) : Bool :=
  ((List.range c.stages.toNat).all fun i =>
    icwLegal (stageAt c i).cicw && icwLegal (stageAt c i).aicw && ocwLegal (stageAt c i).cocw && ocwLegal (stageAt c i).aocw) &&
    stageCode (byteOf c.fcw1 3) && stageCode (byteOf c.fcw1 2) && finalCode (byteOf c.fcw1 1) &&
    finalCode (byteOf c.fcw0 3) && finalCode (byteOf c.fcw0 2) && finalCode (byteOf c.fcw0 1) && finalCode (byteOf c.fcw0 0)

/-- Instruction `i` of the vertex-program memory is not reserved (R140). -/
def instrLegal (l : VpLayout) (u : VProg) (i : Nat) : Bool :=
  vpLegal (vpVopBy l (vpWordsAt u i)) (vpSopBy l (vpWordsAt u i)) (vpFieldsBy l (vpWordsAt u i))

/-- No instruction of the vertex-program memory is reserved (R140). -/
def programLegal (l : VpLayout) (u : VProg) : Bool := (List.range 256).all fun i => instrLegal l u i

/-- Nothing that emitting a vertex can reach is a refusal (R602). -/
def drawReady (s : State) : Bool :=
  enumsLegal s.par.enums s.pix && (s.prim.rsel != .combiner || combinerLegal s.cmb) && (!s.vp.mode || programLegal s.par.tables.vpLayout s.vp)

/-! ### Bytes of the render target -/

/-- The address is one of `n` bytes from `base` on (modulo 2^32). -/
def inBytes (a base : Word) (n : Nat) : Prop := ∃ k, k < n ∧ a = base + BitVec.ofNat 32 k

/-- The address is a colour or zeta byte of pixel (x, y) (R583). -/
def pixelByte (t : Surface) (x y : Nat) (a : Word) : Prop :=
  inBytes a (colorAddr t x y) (colorBpp t.colorFmt) ∨ inBytes a (zetaAddr t x y) (zetaBpp t.zetaFmt)

/-- The address is a colour or zeta byte of a pixel inside the clip rectangle (R583, R586). -/
def targetByte (t : Surface) (a : Word) : Prop := ∃ x y, inClip t x y = true ∧ pixelByte t x y a

/-- Every byte of memory outside the render target reads as before. -/
def memoryKeptOutside (t : Surface) (b b' : Bus) : Prop := ∀ a, ¬ targetByte t a → memByte b'.mem a = memByte b.mem a

/-- Every byte of memory reads as before. -/
def memoryKept (b b' : Bus) : Prop := ∀ a, memByte b'.mem a = memByte b.mem a

/-! ### Invariants -/

/-- Memory is in its canonical form and lists no address at or above `PHYS_SIZE` (R80, R84). -/
def memoryInv (s : State) : Bool := Memory.wf s.bus.mem && bankBelow s.par.physSize s.bus.mem

/-- No two neighbours of the callback record are alike, the first being an assertion (R605). -/
def alternates : Bool → List Bool → Bool
  | _, [] => true
  | prev, x :: rest => (x != prev) && alternates x rest

/-- Recomputing the interrupt line changes nothing (R604), and the record of callbacks holds the changes of level, the last of
them the level now (R58, R605). -/
def irqInv (k : IrqBits) (r : Irq) : Bool :=
  decide (updateIrq k r = r) && alternates false r.callbacks && decide (r.callbacks.getLast?.getD false = r.line)

/-- A burst is one that the puller leaves (R34, R165, R166, R171): a pending count word has no other field of a burst in progress, and a
pending handle is the one word of an increasing header of method 0. -/
def burstOk (b : Burst) : Bool :=
  (!b.lpend || (decide (b.count = 0) && !b.incr && !b.bind)) && (!b.bind || (decide (b.mthd = 0) && decide (b.count = 1) && b.incr))

/-- Every channel's burst is one that the puller leaves. -/
def burstInv (s : State) : Bool := s.chans.all fun e => burstOk e.2.burst

/-- The topology and the number of combiner stages are ones a method can store (R270, R473). -/
def pipelineInv (s : State) : Bool := (decide (s.prim.primType.toNat ≤ 10) || s.prim.primType = 15) && decide (s.cmb.stages.toNat ≤ 8)

/-- A bank is in its canonical form and lists no index at or above `n`. -/
def bankOk {α : Type} [DecidableEq α] (d : α) (n : Nat) (b : Bank α) : Bool := bankWf d b && bankBelow n b

/-- Every bank is in its canonical form within its size (R32 to R48, R51). -/
def bankInv (s : State) : Bool :=
  bankOk .init 32 s.chans && bankOk .none 256 s.subs && bankOk 0 524288 s.regs &&
    bankOk .init 16 s.va.slots && bankOk 0 64 s.va.ibuf && bankOk .zero 16 s.pvtx && bankOk .zero 1025 s.prim.ring &&
    bankOk 0 16 s.xf.proj && bankOk 0 16 s.xf.modelview && bankOk 0 16 s.xf.invModelview && bankOk 0 16 s.xf.composite &&
    bankOk 0 1024 s.vp.vpi && bankOk .zero 192 s.vp.vpc && bankOk .zero 16 s.vp.v && bankOk .zero 16 s.vp.r && bankOk .zero 16 s.vp.o &&
    bankOk .init 4 s.tex && bankOk .init 8 s.cmb.stage && bankOk 0 4294967296 s.mmio

/-- The whole invariant. -/
def Inv (s : State) : Bool := memoryInv s && irqInv s.par.irqBits s.irq && burstInv s && pipelineInv s && bankInv s

/-! ### Values that statements name -/

/-- The value of an operand of legal kind (R307). -/
def operandValue (u : VProg) (f : VpFields) (o : VpOperand) : Vec4 :=
  match operand u f o with
  | .ok v => v
  | .error _ => .zero

/-- The state after the write-back (R309) of results `v` and `sc`; ARL takes its value from `a`. -/
def afterWriteBack (vop sop : BitVec 4) (f : VpFields) (v sc a : Vec4) (s : State) : State :=
  let r := writeBack (who s) vop sop f v sc a s.vp s.bus
  { s with vp := r.1, bus := r.2 }

/-! ### Terms of statements -/

/-- `d[hi:lo]` (R12), by division. -/
def wordBits (d : Word) (hi lo : Nat) : BitVec (hi + 1 - lo) := BitVec.ofNat (hi + 1 - lo) (d.toNat / 2 ^ lo)

/-- `d[n]` (R12), by division. -/
def wordBit (d : Word) (n : Nat) : Bool := decide (d.toNat / 2 ^ n % 2 = 1)

/-- The bank `b'` is `b` with `v` at index `n`. -/
def setsAt {α : Type} (d : α) (b b' : Bank α) (n : Nat) (v : α) : Prop :=
  ∀ m, bankGet d b' m = if m = n then v else bankGet d b m

/-- The run answers the state with nothing changed but the current channel, which becomes `c`. -/
def setsCurChan (r : Run) (s : State) (c : Channel) : Prop :=
  ∃ t, r = .next t ∧ t = { s with chans := t.chans } ∧ setsAt .init s.chans t.chans s.cur.toNat c

/-- The run answers the state with nothing changed but one diagnostic appended (R620). -/
def raisesOnly (r : Run) (s : State) (k : DiagKind) : Prop :=
  r = .next { s with bus := { s.bus with diag := s.bus.diag ++ [⟨k, s.cur, (curChan s).get⟩] } }

/-- The run answers the state with nothing changed but texture unit `n`, which becomes `u`. -/
def setsUnit (r : Run) (s : State) (n : Nat) (u : TexUnit) : Prop :=
  ∃ t, r = .next t ∧ t = { s with tex := t.tex } ∧ setsAt .init s.tex t.tex n u

/-- The run answers the state with nothing changed but combiner stage `n`, which becomes `c`. -/
def setsStage (r : Run) (s : State) (n : BitVec 3) (c : CmbStage) : Prop :=
  ∃ t, r = .next t ∧ t = { s with cmb := { s.cmb with stage := t.cmb.stage } } ∧ setsAt .init s.cmb.stage t.cmb.stage n.toNat c

/-- The run answers the state with nothing changed but vertex-array slot `n`, which becomes `v`, and `ibuf_n`. -/
def setsSlot (r : Run) (s : State) (n : Nat) (v : VaSlot) (ibufN : BitVec 7) : Prop :=
  ∃ t, r = .next t ∧ t = { s with va := { s.va with slots := t.va.slots, ibufN := ibufN } } ∧ setsAt .init s.va.slots t.va.slots n v

/-- The run answers the state with nothing changed but attribute `n` of the persistent vertex, which becomes `v`. -/
def setsAttr (r : Run) (s : State) (n : Nat) (v : Vec4) : Prop :=
  ∃ t, r = .next t ∧ t = { s with pvtx := t.pvtx } ∧ setsAt .zero s.pvtx t.pvtx n v

/-- Attribute `n` of the persistent vertex (R42). -/
def attr (s : State) (n : Nat) : Vec4 := bankGet .zero s.pvtx n

/-- The vertex that the outputs of a program's run are (R345). -/
def programVertex (u : VProg) : TVertex :=
  let o := fun n => bankGet .zero u.o n
  ⟨(o 0).x, (o 0).y, (o 0).w,
    ⟨(o 0).z, (o 3).x, (o 3).y, (o 3).z, (o 3).w, (o 9).x, (o 9).y, (o 10).x, (o 10).y, (o 11).x, (o 11).y, (o 12).x, (o 12).y⟩⟩

/-- The triangles go to the clipper one after the other, from the bus `b` to the bus `b'` (R370, R381). -/
def drawsAll (d : Draw) (sel : Shader) : List (TVertex × TVertex × TVertex) → Bus → Bus → Prop
  | [], b, b' => b' = b
  | t :: rest, b, b' => ∃ m, triangle d sel t.1 t.2.1 t.2.2 b = .ok m ∧ drawsAll d sel rest m b'

/-- The transform of the vertex `vtx` (R255): in program mode the run of the program and its outputs (R306, R345), else the fixed
function, which leaves the vertex-program unit and the bus (R285). -/
def transformsTo (s : State) (vtx : Bank Vec4) (u : VProg) (v : TVertex) (b : Bus) : Prop :=
  (s.vp.mode = true → vpRun s.par (who s) vtx s.vp s.bus = .ok (u, b) ∧ v = programVertex u) ∧
  (s.vp.mode = false → u = s.vp ∧ v = ffTransform s.xf.composite vtx ∧ b = s.bus)

/-- What emitting the vertex `vtx` does (R255): nothing but a diagnostic where no primitive is open; else the transformed vertex is
stored, the triangles it completes go to the clipper in order after the diagnostic of an unsupported topology's first vertex (R370,
R373), and what is drawn stays inside the render target. -/
def emitsOne (s : State) (vtx : Bank Vec4) (t : State) : Prop :=
  t = { s with vp := t.vp, prim := t.prim, bus := t.bus } ∧
  t.vp = { s.vp with ip := t.vp.ip, v := t.vp.v, r := t.vp.r, o := t.vp.o, vpc := t.vp.vpc, a0x := t.vp.a0x } ∧
  (s.prim.primType = 0 → t.vp = s.vp ∧ t.prim = s.prim ∧ t.bus = raise (who s) .vertexOutsideBegin s.bus) ∧
  (s.prim.primType ≠ 0 → ∃ v b, transformsTo s vtx t.vp v b ∧ t.prim = storeVertex s.prim v ∧
    drawsAll (drawOf s) s.prim.rsel (completed t.prim s.prim.vcount.toNat)
      (if (s.prim.primType.toNat < 5 ∨ 9 < s.prim.primType.toNat) ∧ s.prim.vcount = 0 then raise (who s) .unsupportedTopology b else b)
      t.bus) ∧
  memoryKeptOutside s.surf s.bus t.bus

/-- The run answers the state with attribute 0 of the persistent vertex replaced by `v` and that vertex emitted (R256 to R260). -/
def setsAndEmits (r : Run) (s : State) (v : Vec4) : Prop :=
  ∃ p t, r = .next t ∧ setsAt .zero s.pvtx p 0 v ∧ emitsOne { s with pvtx := p } p t

/-- What emitting vertex `n` of the arrays does (R254, R255): the fetch reads, then the vertex is emitted. -/
def emitsIndexed (s : State) (n : Word) (t : State) : Prop :=
  let r := fetchVertex (who s) s.va s.pvtx n s.bus
  r.2.mem = s.bus.mem ∧ emitsOne { s with bus := r.2 } r.1 t

/-- What emitting `count` vertices from `start` on does (R264). -/
def emitsRange (start : Word) : (count : Nat) → State → State → Prop
  | 0, s, t => t = s
  | count + 1, s, t => ∃ u, emitsIndexed s start u ∧ emitsRange (start + 1) count u t

/-- The byte at an address, 0 where it is out of range (R84). -/
def byteOrZero (q : Who) (b : Bus) (a : Word) : Nat := if a.toNat < q.size then (memByte b.mem a).toNat else 0

/-- The diagnostics of reading `n` bytes from `a` on: one for each byte out of range (R84). -/
def readDiags (q : Who) (n : Nat) (a : Word) : List Diag :=
  ((List.range n).filter fun k => decide (q.size ≤ (a + BitVec.ofNat 32 k).toNat)).map fun _ => ⟨.oorRead, q.ch, q.get⟩

/-- The `n` bytes from `a` on lie below `PHYS_SIZE`. -/
def inRange (q : Who) (n : Nat) (a : Word) : Prop := ∀ k, k < n → (a + BitVec.ofNat 32 k).toNat < q.size

/-- The four bytes of the next word of channel `ch` in its ring (R99), 0 where they are out of range. -/
def ringBytes (s : State) (ch : BitVec 5) : List Byte :=
  (List.range 4).map fun k => BitVec.ofNat 8 (byteOrZero ⟨s.par.physSize, ch, (chanAt s ch).get⟩ s.bus (fetchAddr s ch + BitVec.ofNat 32 k))

/-- The instruction draws: it may write the render target. -/
def drawsPixels : Instr → Bool
  | .clearSurface _ | .vertex3f2 _ | .vertex4f3 _ | .vertexData2fM _ _ _ | .vertexData2s _ _ | .vertexData4ub _ _
  | .vertexData4sM _ _ _ | .vertexData4fM _ _ _ | .arrayElement16 _ | .arrayElement32 _ | .drawArrays _ | .inlineArray _ => true
  | _ => false

/-- The instruction is one of the vertex program. -/
def isProgramInstr (i : Instr) : Bool := (encode i).1 = .vector || (encode i).1 = .scalar

/-- The colour word of pixel (x, y) as it stands in memory (R583). -/
def colorWord (d : Draw) (x y : Nat) (b : Bus) : Word := (memReadWord d.who (colorBpp d.surf.colorFmt) (colorAddr d.surf x y) b).1

/-- The zeta word of pixel (x, y) as it stands in memory (R583). -/
def zetaWord (d : Draw) (x y : Nat) (b : Bus) : Word := (memReadWord d.who (zetaBpp d.surf.zetaFmt) (zetaAddr d.surf x y) b).1

/-- The clear reaches the pixel: it is inside the clear rectangle and the clip rectangle (R210). -/
def clearsPixel (s : State) (x y : Nat) : Prop :=
  s.clear.x0.toNat ≤ x ∧ x ≤ s.clear.x1.toNat ∧ s.clear.y0.toNat ≤ y ∧ y ≤ s.clear.y1.toNat ∧ inClip s.surf x y = true

/-- The address is a colour byte that the clear of `d` writes for the pixel. -/
def clearsColorByte (s : State) (d : Word) (x y : Nat) (a : Word) : Prop :=
  wordBits d 7 4 ≠ 0 ∧ colorOk s.surf = true ∧ inBytes a (colorAddr s.surf x y) (colorBpp s.surf.colorFmt)

/-- The address is a zeta byte that the clear of `d` writes for the pixel. -/
def clearsZetaByte (s : State) (d : Word) (x y : Nat) (a : Word) : Prop :=
  wordBits d 1 0 ≠ 0 ∧ zetaOk s.surf = true ∧ inBytes a (zetaAddr s.surf x y) (zetaBpp s.surf.zetaFmt)

/-- The clear of `d` writes to the address: it is a colour or zeta byte, of a buffer that `d` selects and that is supported, of a pixel
inside the clear rectangle and the clip rectangle (R210). -/
def clearedByte (s : State) (d a : Word) : Prop :=
  ∃ x y, clearsPixel s x y ∧ (clearsColorByte s d x y a ∨ clearsZetaByte s d x y a)

/-- No other pixel that the clear reaches, and no zeta byte of any, shares a colour byte of pixel (x, y). -/
def colorAlone (s : State) (d : Word) (x y : Nat) : Prop :=
  ∀ a, clearsColorByte s d x y a → ∀ x' y', clearsPixel s x' y' →
    (clearsColorByte s d x' y' a → x' = x ∧ y' = y) ∧ ¬ clearsZetaByte s d x' y' a

/-- No other pixel that the clear reaches, and no colour byte of any, shares a zeta byte of pixel (x, y). -/
def zetaAlone (s : State) (d : Word) (x y : Nat) : Prop :=
  ∀ a, clearsZetaByte s d x y a → ∀ x' y', clearsPixel s x' y' →
    (clearsZetaByte s d x' y' a → x' = x ∧ y' = y) ∧ ¬ clearsColorByte s d x' y' a

/-- The triangles that vertex `n` of a primitive completes, `V k` being the vertex of index `k` (R370, R371). -/
def trianglesOf (ty : BitVec 4) (n : Nat) (V : Nat → TVertex) : List (TVertex × TVertex × TVertex) :=
  if ty = 5 then (if n % 3 = 2 then [(V (n - 2), V (n - 1), V n)] else [])
  else if ty = 6 then
    (if n < 2 then [] else if n % 2 = 0 then [(V (n - 2), V (n - 1), V n)] else [(V (n - 2), V n, V (n - 1))])
  else if ty = 7 then (if n < 2 then [] else [(V 0, V (n - 1), V n)])
  else if ty = 8 then (if n % 4 = 3 then [(V (n - 3), V (n - 2), V (n - 1)), (V (n - 3), V (n - 1), V n)] else [])
  else if ty = 9 then (if 3 ≤ n ∧ n % 2 = 1 then [(V (n - 3), V (n - 2), V n), (V n, V (n - 1), V (n - 3))] else [])
  else []

/-- The blend factor `k` (R561) for channel `n` of an ARGB8 word, 3 being alpha. -/
def factorOf (k : FactorFn) (n : Nat) (src dst const : Word) : Nat :=
  let ch := fun (w : Word) (m : Nat) => w.toNat / 256 ^ m % 256
  match k with
  | .zero => 0
  | .one => 255
  | .srcColor => ch src n
  | .oneMinusSrcColor => 255 - ch src n
  | .srcAlpha => ch src 3
  | .oneMinusSrcAlpha => 255 - ch src 3
  | .dstAlpha => ch dst 3
  | .oneMinusDstAlpha => 255 - ch dst 3
  | .dstColor => ch dst n
  | .oneMinusDstColor => 255 - ch dst n
  | .srcAlphaSaturate => if n = 3 then 255 else min (ch src 3) (255 - ch dst 3)
  | .constantColor => ch const n
  | .oneMinusConstantColor => 255 - ch const n
  | .constantAlpha => ch const 3
  | .oneMinusConstantAlpha => 255 - ch const 3

/-- The blend answers a colour whose four channels are those of `f` (R560). -/
def blendsTo (e : Enums) (p : PixelState) (src dst : Word) (f : Nat → Nat) : Prop :=
  ∃ w, blend e p src dst = .ok w ∧ ∀ n, n < 4 → (byteOf w n).toNat = f n

/-- The tests of a pixel pass or are not made (R550): `zd` and `sd` are the stored depth and stencil. -/
def testsPass (d : Draw) (z src : Word) (zd : Nat) (sd : BitVec 8) : Prop :=
  let cmp := compare d.enums
  (d.pix.alphaTestEn = true → cmp d.pix.alphaFunc (wordBits src 31 24).toNat d.pix.alphaRef.toNat = .ok true) ∧
  (zetaOk d.surf = true → d.pix.stencilTestEn = true →
    cmp d.pix.stencilFunc (d.pix.stencilRef &&& d.pix.stencilFuncMask).toNat (sd &&& d.pix.stencilFuncMask).toNat = .ok true) ∧
  (zetaOk d.surf = true → d.pix.depthTestEn = true → cmp d.pix.depthFunc (depthOf d.surf.zetaFmt z) zd = .ok true)

/-- The colour that a passed pixel writes (R550): the logic operation's, else the blend's, else the source. -/
def shadesTo (e : Enums) (p : PixelState) (src dst col : Word) : Prop :=
  (p.logicOpEn = true → logicOp e p.logicOp src dst = .ok col) ∧
  (p.logicOpEn = false → p.blendEn = true → blend e p src dst = .ok col) ∧
  (p.logicOpEn = false → p.blendEn = false → col = src)

/-- The stencil `r` merged into `sd` through the write mask (R554). -/
def stencilMerged (p : PixelState) (sd r : BitVec 8) : BitVec 8 := (sd &&& ~~~p.stencilWriteMask) ||| (r &&& p.stencilWriteMask)

/-- Channel expansion (R435) on numbers. -/
def e4 (n : Nat) : Nat := n * 17
def e5 (n : Nat) : Nat := n * 8 + n / 4
def e6 (n : Nat) : Nat := n * 4 + n / 16

/-- Channel `k` of a 16-bit 5:6:5 colour (R436): 2 red, 1 green, 0 blue. -/
def channel565 (c k : Nat) : Nat := if k = 2 then e5 (c / 2048 % 32) else if k = 1 then e6 (c / 32 % 64) else e5 (c % 32)

/-- Channel `k` of entry `code` of the four-colour palette (R445). -/
def paletteFour (c0 c1 code k : Nat) : Nat :=
  let x := channel565 c0 k
  let y := channel565 c1 k
  if code = 0 then x else if code = 1 then y else if code = 2 then (2 * x + y) / 3 else (x + 2 * y) / 3

/-- Channel `k` of entry `code` of the three-colour palette, for codes 0 to 2 (R445). -/
def paletteThree (c0 c1 code k : Nat) : Nat :=
  let x := channel565 c0 k
  let y := channel565 c1 k
  if code = 0 then x else if code = 1 then y else (x + y) / 2

/-- The texel has this alpha and these colour channels. -/
def texelIs (w : Word) (alpha : Nat) (rgb : Nat → Nat) : Prop := (byteOf w 3).toNat = alpha ∧ ∀ k, k < 3 → (byteOf w k).toNat = rgb k

/-- `outmap` (R486) of one component by the operation field. -/
def outmapOf (op : Nat) (x : Word) : Word :=
  let bias : Word := if op = 1 ∨ op = 3 then 0xBF000000 else 0
  let scale : Word := if op = 2 ∨ op = 3 then 0x40000000 else if op = 4 then 0x40800000 else if op = 6 then 0x3F000000 else 0x3F800000
  fMin (fMax (fMul (fAdd x bias) scale) 0xBF800000) 0x3F800000

/-- Register `r` of the register window of channel `ch` (R86, R87): its offset is 0x00800000 + 0x10000 * ch + r. -/
def windowOffset (ch : BitVec 5) (r : BitVec 16) : Word := BitVec.ofNat 32 (0x00800000 + 0x10000 * ch.toNat + r.toNat)

/-- The offsets of the nine registers of the map outside the channel windows, in the order of R610's table. -/
def mapOffsets (m : MmioMap) : List Word :=
  [m.pmcIntr, m.pmcEnable, m.pgraphIntr, m.notifySrc, m.notifyData, m.pgraphEnable, m.pcrtcIntr, m.pcrtcEnable, m.pcrtcStart]

/-- The offset is one of a register of `MMIO_MAP` (R610). -/
def namedOffset (m : MmioMap) (off : Word) : Prop :=
  off ∈ mapOffsets m ∨ ∃ ch : BitVec 5, off = windowOffset ch m.dmaPut ∨ off = windowOffset ch m.dmaGet

/-- The map gives every register an aligned word of its own. -/
def mapOk (m : MmioMap) : Bool :=
  decide (mapOffsets m).Nodup && (mapOffsets m).all (fun off =>
      decide (off.toNat % 4 = 0) && !(inChannelWindow off && (lo16 off == m.dmaPut || lo16 off == m.dmaGet))) &&
    decide (m.dmaPut ≠ m.dmaGet) && decide (m.dmaPut.toNat % 4 = 0) && decide (m.dmaGet.toNat % 4 = 0)

end Sys2Proof.Machine
end

