-- ==== Sys2Proof/Certificates/Slice0/Obligations.lean ====
section
/-! DEFINITION. The statements for the provers. `exec i s = .next t` is the meaning of one instruction; `step` is the machine. The terms
they share (`setsCurChan`, `wordBits`, `emitsOne`, ...) stand in Sys2Proof/Safety.lean. -/

section
open Sys2Proof Sys2Proof.Machine

/-! ### Encodings -/

/-- Decoding the bytes of an encoded well-formed instruction gives it back, every operand at every value (R110, R112, R121, R130). -/
def Obligations.DecodeEncodeRoundTrip : Prop :=
  ∀ i : Instr, WellFormed i = true → decodeBytes (encode i).1 ((encode i).2.flatMap bytesOfWord) = .ok i

/-- A command word and a method word carry no bit that the instruction read from them drops: encoding that instruction gives the word
back, in its slot (R110, R121). -/
def Obligations.WordsHaveOneReading : Prop :=
  (∀ w : Word, encode (decodeCommand w) = (.command, [w])) ∧
  ∀ (m : BitVec 11) (d : Word) (i : Instr), decodeMethod m d = some i → encode i = (.method m, [d])

/-- The command table (R110) with the fields of R111, each row taken alone, in no order: its match condition gives its kind and its
fields, and a word that meets none is INVALID. -/
def Obligations.CommandTable : Prop :=
  ∀ w : Word,
    (w &&& 0x00000003 = 0x00000001 → decodeCommand w = .jump (wordBits w 31 2)) ∧
    (w &&& 0x00000003 = 0x00000002 → decodeCommand w = .call (wordBits w 31 2)) ∧
    (w &&& 0xE0030003 = 0x00000000 → decodeCommand w = .increasing (wordBits w 12 2) (wordBits w 15 13) (wordBits w 28 18)) ∧
    (w &&& 0xE0030003 = 0x40000000 → decodeCommand w = .nonincreasing (wordBits w 12 2) (wordBits w 15 13) (wordBits w 28 18)) ∧
    (w &&& 0xFFFF0003 = 0x00030000 → decodeCommand w = .longNonincreasing (wordBits w 12 2) (wordBits w 15 13)) ∧
    (w = 0x00020000 → decodeCommand w = .ret) ∧
    (w &&& 0xE0000003 = 0x20000000 → decodeCommand w = .oldJump (wordBits w 28 2)) ∧
    (w &&& 0xFFFF0003 = 0x00010000 → decodeCommand w = .sliConditional (wordBits w 15 2)) ∧
    (w &&& 0x00000003 ≠ 0x00000001 → w &&& 0x00000003 ≠ 0x00000002 → w &&& 0xE0030003 ≠ 0x00000000 →
      w &&& 0xE0030003 ≠ 0x40000000 → w &&& 0xFFFF0003 ≠ 0x00030000 → w ≠ 0x00020000 → w &&& 0xE0000003 ≠ 0x20000000 →
      w &&& 0xFFFF0003 ≠ 0x00010000 → decodeCommand w = .invalid w)

/-- A few words of each instruction set, written out from the tables, decode to the instruction they stand for (R110, R121, R130). -/
def Obligations.DecodedWords : Prop :=
  decodeCommand 0x00001001 = .jump 0x400 ∧
  decodeCommand 0x00042208 = .increasing 0x082 1 1 ∧
  decodeCommand 0x00031818 = .longNonincreasing 0x606 0 ∧
  decodeCommand 0x80000000 = .invalid 0x80000000 ∧
  decode (.method 0x080) [0x02800000] = .ok (.surfaceClipHorizontal 0x02800000) ∧
  decode (.method 0x6D3) [7] = .ok (.textureControl0N1 7) ∧
  decode (.method 0x647) [9] = .ok (.vertexData2s 7 9) ∧
  decode (.method 0x040) [0] = .ok (.noOperation 0) ∧
  decode (.method 0x041) [0] = .error (.unassignedMethod 0x041) ∧
  decode .vector [0, 0x0020001B, 0x08000000, 0x0000F801] =
    .ok (.vpMov 0 ⟨0, 0, ⟨0, 0x1B, 0, 2⟩, ⟨0, 0, 0, 0⟩, ⟨0, 0, 0, 0⟩, 0, 0, 0, 0xF, 1, 0, 0, 0, 1⟩) ∧
  decode .scalar [0, 0x05C00000, 0, 0] = .ok (.vpSRcp 14 ⟨0, 0, ⟨0, 0, 0, 0⟩, ⟨0, 0, 0, 0⟩, ⟨0, 0, 0, 0⟩, 0, 0, 0, 0, 0, 0, 0, 0, 0⟩) ∧
  decode .vector [0, 0x05C00000, 0, 0] = .error (.reservedVop 14)

/-! ### Command puller -/

/-- JUMP, CALL and OLD_JUMP set `GET` of the current channel to the target in the word and change nothing else (R161, R162, R164). -/
def Obligations.JumpsSetGet : Prop :=
  ∀ (w : Word) (s : State),
    (∀ t, decodeCommand w = .jump t → setsCurChan (exec (.jump t) s) s { curChan s with get := w &&& 0xFFFFFFFC }) ∧
    (∀ t, decodeCommand w = .call t → setsCurChan (exec (.call t) s) s { curChan s with get := w &&& 0xFFFFFFFC }) ∧
    (∀ t, decodeCommand w = .oldJump t → setsCurChan (exec (.oldJump t) s) s { curChan s with get := w &&& 0x1FFFFFFC })

/-- A method header opens its burst, executes no method and changes nothing else; the count word of the long form sets its count
(R165, R171). -/
def Obligations.HeadersOpenBursts : Prop :=
  ∀ (mthd : BitVec 11) (subc : BitVec 3) (count : BitVec 11) (c : Word) (s : State),
    setsCurChan (exec (.increasing mthd subc count) s) s
      { curChan s with burst := ⟨mthd, subc, BitVec.ofNat 24 count.toNat, true, decide (mthd = 0 ∧ count = 1), false⟩ } ∧
    setsCurChan (exec (.nonincreasing mthd subc count) s) s
      { curChan s with burst := ⟨mthd, subc, BitVec.ofNat 24 count.toNat, false, false, false⟩ } ∧
    setsCurChan (exec (.longNonincreasing mthd subc) s) s { curChan s with burst := ⟨mthd, subc, 0, false, false, true⟩ } ∧
    setsCurChan (longCount c s) s { curChan s with burst := { (curChan s).burst with count := wordBits c 23 0, lpend := false } }

/-- RETURN, SLI_CONDITIONAL and INVALID have no effect but their diagnostic, which carries the channel and its `GET` (R163, R168, R169,
R620). -/
def Obligations.IgnoredCommandWords : Prop :=
  ∀ (x : BitVec 14) (w : Word) (s : State),
    raisesOnly (exec .ret s) s .unimplementedReturn ∧
    raisesOnly (exec (.sliConditional x) s) s .unimplementedCommand ∧
    raisesOnly (exec (.invalid w) s) s .badCommand

/-- The bind-object data word (R166): the handle found is bound with its class, one not found leaves the binding with a diagnostic;
the word is stored as the register of method 0; the burst ends. -/
def Obligations.BindObjectWord : Prop :=
  ∀ (h : Word) (s : State), ∃ t, exec (.bindObject h) s = .next t ∧
    t = { s with chans := t.chans, subs := t.subs, regs := t.regs, bus := t.bus } ∧
    setsAt .init s.chans t.chans s.cur.toNat { curChan s with burst := { (curChan s).burst with count := 0, bind := false } } ∧
    setsAt 0 s.regs t.regs (regIndex s.cur (curChan s).burst.subc 0) h ∧
    (∀ o, objectLookup s s.cur h = some o →
      setsAt .none s.subs t.subs (subIndex s.cur (curChan s).burst.subc) ⟨h, o.cls⟩ ∧ t.bus = s.bus) ∧
    (objectLookup s s.cur h = none → t.subs = s.subs ∧
      t.bus = { s.bus with diag := s.bus.diag ++ [⟨.unknownHandle, s.cur, (curChan s).get⟩] })

/-- The fetch (R160, R83, R84, R99): the word is the little-endian value of the four bytes at `PB_BASE + GET`, one out of range reading
0 with a diagnostic; `GET` moves 4 on modulo 2^32; memory stays. That each byte out of range has its own diagnostic and that the bytes
wrap modulo 2^32 is the model's reading (assumption log 25), that these diagnostics carry `GET` before the advance too (log 24). -/
def Obligations.FetchReadsRingWord : Prop :=
  ∀ s : State,
    (fetchWord s).1.toNat =
      ∑ k ∈ Finset.range 4, byteOrZero (who s) s.bus (fetchAddr s s.cur + BitVec.ofNat 32 k) * 256 ^ k ∧
    (fetchWord s).2 = { s with chans := (fetchWord s).2.chans, bus := (fetchWord s).2.bus } ∧
    setsAt .init s.chans (fetchWord s).2.chans s.cur.toNat
      { curChan s with get := BitVec.ofNat 32 ((curChan s).get.toNat + 4) } ∧
    (fetchWord s).2.bus.mem = s.bus.mem ∧
    (fetchWord s).2.bus.diag = s.bus.diag ++ readDiags (who s) 4 (fetchAddr s s.cur)

/-- A step runs the decoded instruction (R160, R167, R170, R671). Where the agenda's first move is the puller of an enabled channel, or
the agenda is empty and it is the lowest-numbered enabled channel: with no burst in progress the four bytes at `PB_BASE + GET` are a
command word, with a bind pending they are a handle, and in a burst on a subchannel of the 3D class they are the data word of the
method; the step is `exec` of what they decode to, on the state after the fetch, and for a data word after its store in `regs`, with
the burst advanced after it. The decode tables and the 3D class are the parameters of the machine (R10). Which
enabled puller moves is open (D44): the agenda and the choice for an empty one are the model's own (assumption log 22). -/
def Obligations.StepRunsDecodedInstruction : Prop :=
  (∀ (s : State) (ch : BitVec 5) (rest : List Agent) (i : Instr),
    s.agenda = .puller ch :: rest → enabled s ch = true →
    let b := (chanAt s ch).burst
    let f := fetchWord { s with agenda := rest, cur := ch }
    (b.count = 0 → b.lpend = false → decodeBytesBy s.par.tables .command (ringBytes s ch) = .ok i → step s = exec i f.2) ∧
    (b.count ≠ 0 → b.lpend = false → b.bind = true → decodeBytesBy s.par.tables .bind (ringBytes s ch) = .ok i → step s = exec i f.2) ∧
    (b.count ≠ 0 → b.lpend = false → b.bind = false → (subAt s ch b.subc).cls = s.par.kelvinClass →
      decodeBytesBy s.par.tables (.method b.mthd) (ringBytes s ch) = .ok i →
      step s = Run.andThen (exec i (f.2.setReg ch b.subc b.mthd f.1)) fun t => .next (advanceBurst t))) ∧
  ∀ (s : State) (ch : BitVec 5), s.agenda = [] → enabled s ch = true → (∀ c : BitVec 5, c < ch → enabled s c = false) →
    step s = step { s with agenda := [.puller ch] }

/-- The run of a vertex executes the instruction that its four words decode to (R306): one turn of the loop at `vpip` is `exec` of it,
seen from either slot; FINAL, bit 0 of `w3` in the default layout, ends the run, else `vpip` moves one on. -/
def Obligations.ProgramRunsDecodedInstruction : Prop :=
  ∀ (s t : State) (i : Instr) (n : Nat), s.vp.ip.toNat < 256 →
    let ws := (List.range 4).map fun j => vpiAt s.vp s.vp.ip.toNat j
    let l := s.par.tables
    (decodeBy l .vector ws = .ok i ∨ decodeBy l .scalar ws = .ok i) → exec i s = .next t →
    vpLoop s.par (who s) (n + 1) s.vp s.bus =
      (if (vpFieldsBy l.vpLayout (vpWordsAt s.vp s.vp.ip.toNat)).final = 1 then .ok (t.vp, t.bus)
       else vpLoop s.par (who s) n { t.vp with ip := t.vp.ip + 1 } t.bus) ∧
    (l.vpLayout = vpLayout →
      ((vpFieldsBy l.vpLayout (vpWordsAt s.vp s.vp.ip.toNat)).final = 1 ↔ wordBit (vpiAt s.vp s.vp.ip.toNat 3) 0 = true))

/-- The bookkeeping of a data word (R167, R170), whatever its method does: the word is stored in the register of its address; the count
falls by one; an increasing burst moves one method on modulo 2048; `GET`, `PUT` and the bindings stay. A method write through a
subchannel not bound to the 3D class, or to an address that is not in the map, has no other effect than the store (R122). -/
def Obligations.DataWordBookkeeping : Prop :=
  ∀ (d : Word) (s : State),
    let b := (curChan s).burst
    (∀ t, dataWord d s = .next t →
      t.cur = s.cur ∧ (curChan t).get = (curChan s).get ∧ (curChan t).put = (curChan s).put ∧
      (curChan t).burst = { b with count := b.count - 1, mthd := if b.incr then BitVec.ofNat 11 (b.mthd.toNat + 1) else b.mthd } ∧
      setsAt 0 s.regs t.regs (regIndex s.cur b.subc b.mthd) d ∧ t.subs = s.subs) ∧
    ((subAt s s.cur b.subc).cls ≠ s.par.kelvinClass ∨ decodeMethodBy s.par.tables.methodMap b.mthd d = none →
      ∃ t, methodWrite d s = .next t ∧ t = { s with regs := t.regs } ∧ setsAt 0 s.regs t.regs (regIndex s.cur b.subc b.mthd) d)

/-! ### Interrupts, host interface, whole-machine rules -/

/-- `update_irq` and the methods that wait. `update_irq` (R604): the two mirror bits, whichever bits they are, the level, and the callback
on a change of level only. NO_OPERATION with 0 does nothing; with another word it records the source and the word, sets the notify bit,
recomputes the line and suspends the channel until PGRAPH is idle (R220). WAIT_FOR_VBLANK suspends the channel (R221, R172). The three
bits are parameters; the last clause gives their defaults. -/
def Obligations.InterruptLineAndWaits : Prop :=
  (∀ (k : IrqBits) (r : Irq),
    let r' := updateIrq k r
    (∀ n, n < 32 → r'.pmcIntr.getLsbD n =
      (decide (n = k.pgraph.toNat ∧ r.pgraphIntr &&& r.pgraphEnable ≠ 0) || decide (n = k.pcrtc.toNat ∧ r.pcrtcIntr &&& r.pcrtcEnable ≠ 0) ||
        decide (n ≠ k.pgraph.toNat ∧ n ≠ k.pcrtc.toNat) && r.pmcIntr.getLsbD n)) ∧
    r'.line = decide (r'.pmcIntr &&& r.pmcEnable ≠ 0) ∧
    r'.callbacks = (if r'.line = r.line then r.callbacks else r.callbacks ++ [r'.line]) ∧
    r' = { r with pmcIntr := r'.pmcIntr, line := r'.line, callbacks := r'.callbacks }) ∧
  (∀ (d : Word) (s : State),
    exec (.noOperation 0) s = .next s ∧
    (d ≠ 0 → ∃ t, exec (.noOperation d) s = .next t ∧ t = { s with irq := t.irq, chans := t.chans } ∧
      setsAt .init s.chans t.chans s.cur.toNat { curChan s with pstate := .susp .pgraphIdle } ∧
      t.irq = updateIrq s.par.irqBits { s.irq with
        notifySrc := BitVec.ofNat 32 (s.cur.toNat * 2 ^ 20 + (curChan s).burst.subc.toNat * 2 ^ 16 + 0x0100)
        notifyData := d
        pgraphIntr := s.irq.pgraphIntr ||| s.par.irqBits.notify }) ∧
    setsCurChan (exec (.waitForVblank d) s) s { curChan s with pstate := .susp .vblank }) ∧
  IrqBits.init = ⟨12, 24, 0x00100000⟩

/-- The two resume events. A vblank sets the pending bit, recomputes the line and sets every channel that waits for it running
(R606). A host write to `PGRAPH.intr` clears the bits written as 1, recomputes the line and, where the notify bit is then clear, sets
every channel that waits for PGRAPH running (R612, R607). The aperture's base, the map and the notify bit are parameters, the map one
that gives every register an aligned word of its own; by default the notify bit is 0x00100000. -/
def Obligations.ResumeEvents : Prop :=
  (∀ (s : State) (v : Word) (rest : List Agent),
    (s.agenda = .vblank :: rest →
      ∃ t, step s = .next t ∧
        t = { s with agenda := rest, irq := updateIrq s.par.irqBits { s.irq with pcrtcIntr := s.irq.pcrtcIntr ||| 1 }, chans := t.chans } ∧
        ∀ ch : BitVec 5, chanAt t ch =
          if (chanAt s ch).pstate = .susp .vblank then { chanAt s ch with pstate := .run } else chanAt s ch) ∧
    (mapOk s.par.mmioMap = true → s.agenda = .mmioWrite (s.par.mmioBase + s.par.mmioMap.pgraphIntr) 4 v :: rest →
      ∃ t, step s = .next t ∧
        t = { s with
          agenda := rest, irq := updateIrq s.par.irqBits { s.irq with pgraphIntr := s.irq.pgraphIntr &&& ~~~v }, chans := t.chans } ∧
        ∀ ch : BitVec 5, chanAt t ch =
          if (s.irq.pgraphIntr &&& ~~~v) &&& s.par.irqBits.notify = 0 ∧ (chanAt s ch).pstate = .susp .pgraphIdle then
            { chanAt s ch with pstate := .run }
          else chanAt s ch)) ∧
  IrqBits.init.notify = 0x00100000

/-- The host's accesses, at addresses of the system bus (R86): its writes to the other registers of the map (R610 to R613), to plain
storage (R58), the accesses that are refused (R86), its reads, which return the current value and change nothing (R612), and its writes
of physical memory (R614). The aperture's base and the map are parameters, the map one that gives every register an aligned word of its
own, as the default of R610 does. The model's own choices: `hostData` holds what a read returned, every offset that the map does not name
is plain storage, outside the windows of R86 too, every bus address lies in the aperture, modulo 2^32, and alignment is that of the offset
(assumption log 27, DESIGN CHOICE); one move writes any list of bytes, those at or above `PHYS_SIZE` being dropped (log 28, DESIGN
CHOICE), and past address 0xFFFFFFFF it goes on at address 0 (log 39, DESIGN CHOICE). -/
def Obligations.HostAccesses : Prop :=
  (∀ (v : Word) (s : State),
    let m := s.par.mmioMap
    let writes := fun (off : Word) (t : State) => hostMmioWrite (s.par.mmioBase + off) 4 v s = .next t
    let withIrq := fun (r : Irq) => { s with irq := updateIrq s.par.irqBits r }
    let setsChan := fun (off : Word) (ch : BitVec 5) (c : Channel) =>
      ∃ t, writes off t ∧ t = { s with chans := t.chans } ∧ setsAt .init s.chans t.chans ch.toNat c
    let reads := fun (off v : Word) => hostMmioRead (s.par.mmioBase + off) 4 s = .next { s with hostData := v }
    let off := fun (a : Word) => (a - s.par.mmioBase).toNat
    (mapOk m = true →
      writes m.pmcIntr s ∧ writes m.pmcEnable (withIrq { s.irq with pmcEnable := v }) ∧
      writes m.pgraphEnable (withIrq { s.irq with pgraphEnable := v }) ∧
      writes m.pcrtcIntr (withIrq { s.irq with pcrtcIntr := s.irq.pcrtcIntr &&& ~~~v }) ∧
      writes m.pcrtcEnable (withIrq { s.irq with pcrtcEnable := v }) ∧
      writes m.notifySrc { s with irq := { s.irq with notifySrc := v } } ∧
      writes m.notifyData { s with irq := { s.irq with notifyData := v } } ∧
      writes m.pcrtcStart { s with irq := { s.irq with displayed := v } } ∧
      (∀ ch, setsChan (windowOffset ch m.dmaPut) ch { chanAt s ch with put := v }) ∧
      (∀ ch, setsChan (windowOffset ch m.dmaGet) ch { chanAt s ch with get := v }) ∧
      reads m.pmcIntr s.irq.pmcIntr ∧ reads m.pmcEnable s.irq.pmcEnable ∧ reads m.pgraphIntr s.irq.pgraphIntr ∧
      reads m.pgraphEnable s.irq.pgraphEnable ∧ reads m.pcrtcIntr s.irq.pcrtcIntr ∧ reads m.pcrtcEnable s.irq.pcrtcEnable ∧
      reads m.notifySrc s.irq.notifySrc ∧ reads m.notifyData s.irq.notifyData ∧ reads m.pcrtcStart s.irq.displayed ∧
      (∀ ch, reads (windowOffset ch m.dmaPut) (chanAt s ch).put) ∧ ∀ ch, reads (windowOffset ch m.dmaGet) (chanAt s ch).get) ∧
    (∀ a : Word, ¬ namedOffset m (a - s.par.mmioBase) → off a % 4 = 0 →
      ∃ t, hostMmioWrite a 4 v s = .next t ∧ t = { s with mmio := t.mmio } ∧ setsAt 0 s.mmio t.mmio (off a) v ∧
        hostMmioRead a 4 t = .next { t with hostData := v }) ∧
    (∀ (a : Word) (bytes : Nat), bytes ≠ 4 ∨ off a % 4 ≠ 0 →
      hostMmioWrite a bytes v s = .refused .mmioWidth ∧ hostMmioRead a bytes s = .refused .mmioWidth) ∧
    ∀ (a : Word) (data : List Byte) (rest : List Agent), s.agenda = .memWrite a data :: rest → data.length ≤ 2 ^ 32 →
      ∃ t, step s = .next t ∧ t = { s with agenda := rest, bus := { s.bus with mem := t.bus.mem } } ∧
        (∀ k, k < data.length → (a + BitVec.ofNat 32 k).toNat < s.par.physSize →
          memByte t.bus.mem (a + BitVec.ofNat 32 k) = data.getD k 0) ∧
        ∀ c, ¬ inBytes c a data.length ∨ s.par.physSize ≤ c.toNat → memByte t.bus.mem c = memByte s.bus.mem c) ∧
  mapOk .init = true ∧
  MmioMap.init =
    ⟨0x00000100, 0x00000140, 0x00400100, 0x00400704, 0x00400708, 0x00400140, 0x00600100, 0x00600140, 0x00600800, 0x40, 0x44⟩

/-- A suspended channel stays as it is but for its two resume events and the host's writes to its pointers (R172, R606, R607, R629):
only a vblank ends a wait for vblank, only a host write to `PGRAPH.intr` that leaves the notify bit clear ends a wait for PGRAPH, and
`GET` and `PUT` change by the host's write to them alone. A puller move of a channel that is not enabled, suspended or with nothing to
read (R160), changes nothing but the agenda, as does a step with no move and no enabled channel (assumption log 22, the model's choice
of a step that does nothing). -/
def Obligations.OnlyEventsResume : Prop :=
  (∀ (s t : State) (ch : BitVec 5) (r : Wait), step s = .next t → (chanAt s ch).pstate = .susp r →
    (chanAt t ch).burst = (chanAt s ch).burst ∧
    ((∀ v, s.agenda.head? ≠ some (.mmioWrite (s.par.mmioBase + windowOffset ch s.par.mmioMap.dmaGet) 4 v)) →
      (chanAt t ch).get = (chanAt s ch).get) ∧
    ((∀ v, s.agenda.head? ≠ some (.mmioWrite (s.par.mmioBase + windowOffset ch s.par.mmioMap.dmaPut) 4 v)) →
      (chanAt t ch).put = (chanAt s ch).put) ∧
    ((chanAt t ch).pstate = .susp r ∨
      (chanAt t ch).pstate = .run ∧
        (r = .vblank ∧ s.agenda.head? = some .vblank ∨
          r = .pgraphIdle ∧ (∃ v, s.agenda.head? = some (.mmioWrite (s.par.mmioBase + s.par.mmioMap.pgraphIntr) 4 v)) ∧
            t.irq.pgraphIntr &&& s.par.irqBits.notify = 0))) ∧
  (∀ (s : State) (ch : BitVec 5), enabled s ch = true ↔ (chanAt s ch).pstate = .run ∧ (chanAt s ch).get ≠ (chanAt s ch).put) ∧
  (∀ (s : State) (ch : BitVec 5) (rest : List Agent), s.agenda = .puller ch :: rest → enabled s ch = false →
    step s = .next { s with agenda := rest }) ∧
  ∀ s : State, s.agenda = [] → (∀ ch, enabled s ch = false) → step s = .next s

/-- What only the host writes: `PUT`, `displayedtarget`, the enable registers and plain MMIO storage stay over every step that is no MMIO
word write of the host (R32, R58, R613, R625), and the parameters over every step (R10). The model's own choice: the object table behind
`ObjectLookup` is the model's field (assumption log 8) and changes by the move `placeObject` alone, so it stays over an MMIO write to
PRAMIN too, though R88 lets the lookup read PRAMIN (log 6, DESIGN CHOICE, unsafe). -/
def Obligations.OnlyHostWrites : Prop :=
  ∀ s t : State, step s = .next t →
    t.par = s.par ∧
    ((∀ ch h o, s.agenda.head? ≠ some (.placeObject ch h o)) → t.objects = s.objects) ∧
    ((∀ a v, s.agenda.head? ≠ some (.mmioWrite a 4 v)) →
      (∀ ch, (chanAt t ch).put = (chanAt s ch).put) ∧ t.irq.displayed = s.irq.displayed ∧ t.irq.pmcEnable = s.irq.pmcEnable ∧
        t.irq.pgraphEnable = s.irq.pgraphEnable ∧ t.irq.pcrtcEnable = s.irq.pcrtcEnable ∧ t.mmio = s.mmio)

/-- Channel isolation (R625): a puller step of one channel leaves the pointers, status, burst, bindings and registers of every other. -/
def Obligations.ChannelsIsolated : Prop :=
  ∀ (s t : State) (ch c : BitVec 5) (rest : List Agent), s.agenda = .puller ch :: rest → step s = .next t → c ≠ ch →
    chanAt t c = chanAt s c ∧ ∀ subc, subAt t c subc = subAt s c subc ∧ ∀ m, regAt t c subc m = regAt s c subc m

/-- The diagnostic log only grows, over every step (R620). -/
def Obligations.DiagnosticsOnlyGrow : Prop :=
  ∀ s t : State, step s = .next t → ∃ l, t.bus.diag = s.bus.diag ++ l

/-- Every refusal of a step is one of R602, with its cause: an MMIO access that is no aligned word (R86); in program mode an instruction
of the program memory, the one at `vpip`, with a reserved opcode or an operand of kind 0 that it reads (R340); under the combiner shader
a reserved register code or output operation in the configuration (R481, R486); or a word outside its enumeration that an enabled test
or operation uses (R598). -/
def Obligations.RefusalsAreTheSpecs : Prop :=
  ∀ (s : State) (r : Refusal), step s = .refused r →
    (r = .mmioWidth ∧ ∃ a bytes, (bytes ≠ 4 ∨ (a - s.par.mmioBase).toNat % 4 ≠ 0) ∧
      ((∃ v, s.agenda.head? = some (.mmioWrite a bytes v)) ∨ s.agenda.head? = some (.mmioRead a bytes))) ∨
    (∃ p, r = .vpReserved p ∧ s.vp.mode = true ∧ p.toNat < 256 ∧ instrLegal s.par.tables.vpLayout s.vp p.toNat = false ∧
      programLegal s.par.tables.vpLayout s.vp = false) ∨
    (r = .cmbReserved ∧ s.prim.rsel = .combiner ∧ combinerLegal s.cmb = false) ∨
    ∃ w, r = .badEnum w ∧ enumOutside s.par.enums s.pix w ∧ enumsLegal s.par.enums s.pix = false

/-! ### Physical memory -/

/-- `MemRead` (R13, R83, R84, R85): the little-endian value of the bytes, each out of range reading 0 with its own diagnostic, at any
alignment; memory stays. One diagnostic for each byte out of range, and the wrap of the address modulo 2^32, are the model's reading
(assumption log 25). -/
def Obligations.MultiByteRead : Prop :=
  ∀ (q : Who) (n : Nat) (a : Word) (b : Bus),
    (memRead q n a b).1 = ∑ k ∈ Finset.range n, byteOrZero q b (a + BitVec.ofNat 32 k) * 256 ^ k ∧
    (memRead q n a b).2 = { b with diag := b.diag ++ readDiags q n a }

/-- `MemWrite` then `MemRead` (R13, R83): the low bytes of the value come back, and every byte outside reads as before. -/
def Obligations.MemoryReadAfterWrite : Prop :=
  ∀ (q : Who) (n : Nat) (a : Word) (v : Nat) (b : Bus), n ≤ 2 ^ 32 → inRange q n a →
    (memRead q n a (memWrite q n a v b)).1 = v % 256 ^ n ∧
    (memWrite q n a v b).diag = b.diag ∧
    ∀ c, ¬ inBytes c a n → memByte (memWrite q n a v b).mem c = memByte b.mem c

/-- Dilation (R90): the two sums, and the bijection of the square onto the range of texel indices. -/
def Obligations.DilationBijection : Prop :=
  ∀ b, b ≤ 15 →
    (∀ x, dilate0 x b = ∑ n ∈ Finset.range b, x / 2 ^ n % 2 * 2 ^ (2 * n) + x / 2 ^ b * 2 ^ (2 * b)) ∧
    (∀ x, dilate1 x b = ∑ n ∈ Finset.range b, x / 2 ^ n % 2 * 2 ^ (2 * n + 1) + x / 2 ^ b * 2 ^ (2 * b)) ∧
    (∀ x y, x < 2 ^ b → y < 2 ^ b → dilate0 x b ||| dilate1 y b < 2 ^ (2 * b)) ∧
    ∀ k, k < 2 ^ (2 * b) → ∃ x y, (x < 2 ^ b ∧ y < 2 ^ b ∧ dilate0 x b ||| dilate1 y b = k) ∧
      ∀ x' y', x' < 2 ^ b → y' < 2 ^ b → dilate0 x' b ||| dilate1 y' b = k → x' = x ∧ y' = y

/-! ### Render target, clear, pixel state -/

/-- The render-target and clear methods (R200 to R209): each field takes its bits of the data word, nothing else changes, and
`size_rendertarget` follows by the parameter `AA_YSCALE`, whose default gives the modes 0, 1 and 2 (R37). -/
def Obligations.SurfaceMethods : Prop :=
  ∀ (d : Word) (s : State),
    exec (.surfaceClipHorizontal d) s = .next { s with surf := { s.surf with clipX := wordBits d 15 0, clipW := wordBits d 31 16 } } ∧
    exec (.surfaceClipVertical d) s = .next { s with surf := { s.surf with clipY := wordBits d 15 0, clipH := wordBits d 31 16 } } ∧
    exec (.surfaceFormat d) s = .next { s with
      surf := { s.surf with
        colorFmt := wordBits d 3 0, zetaFmt := wordBits d 7 4, layout := wordBits d 11 8, aa := wordBits d 15 12
        log2w := wordBits d 23 16, log2h := wordBits d 31 24 } } ∧
    exec (.surfacePitch d) s =
      .next { s with surf := { s.surf with colorPitch := wordBits d 15 0, zetaPitch := wordBits d 31 16 } } ∧
    exec (.surfaceColorOffset d) s = .next { s with surf := { s.surf with colorOffset := d } } ∧
    exec (.surfaceZetaOffset d) s = .next { s with surf := { s.surf with zetaOffset := d } } ∧
    exec (.zstencilClearValue d) s = .next { s with clear := { s.clear with zstencil := d } } ∧
    exec (.colorClearValue d) s = .next { s with clear := { s.clear with color := d } } ∧
    exec (.clearRectHorizontal d) s = .next { s with clear := { s.clear with x0 := wordBits d 15 0, x1 := wordBits d 31 16 } } ∧
    exec (.clearRectVertical d) s = .next { s with clear := { s.clear with y0 := wordBits d 15 0, y1 := wordBits d 31 16 } } ∧
    (∀ n, s.par.aaYScale.lookup s.surf.aa = some n → sizeRendertarget s = s.surf.colorPitch.toNat * (s.surf.clipH.toNat * n)) ∧
    (s.par.aaYScale = aaYScaleInit →
      (s.surf.aa = 0 ∨ s.surf.aa = 1 → sizeRendertarget s = s.surf.colorPitch.toNat * s.surf.clipH.toNat) ∧
      (s.surf.aa = 2 → sizeRendertarget s = s.surf.colorPitch.toNat * (2 * s.surf.clipH.toNat)))

/-- CLEAR_SURFACE completes in every state; it changes memory and the log alone, and no byte of memory but those of the selected,
supported buffers at pixels inside both rectangles (R210, R585, R586). -/
def Obligations.ClearSurfaceCompletes : Prop :=
  ∀ (d : Word) (s : State), ∃ t, exec (.clearSurface d) s = .next t ∧ t = { s with bus := t.bus } ∧
    ∀ a, ¬ clearedByte s d a → memByte t.bus.mem a = memByte s.bus.mem a

/-- The clear of each pixel that CLEAR_SURFACE reaches (R210): where its colour bytes lie in memory and are its own among what the clear
writes, the colour word becomes `(old & ~m) | (new & m)`, `new` the packed clear colour (R582) and `m` the channel mask of the channels
that both the data word and the write masks allow (R211); where its zeta bytes do, a Z16 word becomes the clear value where depth is
selected and enabled, and of a Z24S8 word the depth and, through the stencil write mask, the stencil. A clear of supported buffers within
memory raises no diagnostic. -/
def Obligations.ClearWritesPixel : Prop :=
  ∀ (d : Word) (s : State), ∃ t, exec (.clearSurface d) s = .next t ∧
    (∀ x y, clearsPixel s x y → wordBits d 7 4 ≠ 0 → colorOk s.surf = true →
      inRange (who s) (colorBpp s.surf.colorFmt) (colorAddr s.surf x y) → colorAlone s d x y →
      colorWord (drawOf s) x y t.bus =
        merge (colorWord (drawOf s) x y s.bus) (packColor s.surf.colorFmt s.clear.color)
          (chanMask s.surf.colorFmt (wordBit d 4 && s.pix.cmaskR) (wordBit d 5 && s.pix.cmaskG) (wordBit d 6 && s.pix.cmaskB)
            (wordBit d 7 && s.pix.cmaskA))) ∧
    (∀ x y, clearsPixel s x y → wordBits d 1 0 ≠ 0 → zetaOk s.surf = true →
      inRange (who s) (zetaBpp s.surf.zetaFmt) (zetaAddr s.surf x y) → zetaAlone s d x y →
      let old := zetaWord (drawOf s) x y s.bus
      let new := zetaWord (drawOf s) x y t.bus
      let z := wordBit d 0 && s.pix.depthWriteEn
      let m : BitVec 8 := if wordBit d 1 then s.pix.stencilWriteMask else 0
      (s.surf.zetaFmt = 1 → new = if z then s.clear.zstencil &&& 0xFFFF else old) ∧
      (s.surf.zetaFmt = 2 → wordBits new 31 8 = wordBits (if z then s.clear.zstencil else old) 31 8 ∧
        wordBits new 7 0 = (wordBits old 7 0 &&& ~~~m) ||| (wordBits s.clear.zstencil 7 0 &&& m))) ∧
    ((wordBits d 7 4 ≠ 0 → colorOk s.surf = true) → (wordBits d 1 0 ≠ 0 → zetaOk s.surf = true) →
      (∀ a, clearedByte s d a → a.toNat < s.par.physSize) → t.bus.diag = s.bus.diag)

/-- The alpha, depth and stencil methods (R520, R522 to R525, R530, R532 to R536): each field takes its bits of the data word, an
enumerated field the whole word; nothing else changes. -/
def Obligations.TestStateMethods : Prop :=
  ∀ (d : Word) (s : State),
    exec (.alphaTestEnable d) s = .next { s with pix := { s.pix with alphaTestEn := wordBit d 0 } } ∧
    exec (.alphaFunc d) s = .next { s with pix := { s.pix with alphaFunc := d } } ∧
    exec (.alphaRef d) s = .next { s with pix := { s.pix with alphaRef := wordBits d 7 0 } } ∧
    exec (.depthTestEnable d) s = .next { s with pix := { s.pix with depthTestEn := wordBit d 0 } } ∧
    exec (.depthFunc d) s = .next { s with pix := { s.pix with depthFunc := d } } ∧
    exec (.depthMask d) s = .next { s with pix := { s.pix with depthWriteEn := wordBit d 0 } } ∧
    exec (.stencilTestEnable d) s = .next { s with pix := { s.pix with stencilTestEn := wordBit d 0 } } ∧
    exec (.stencilMask d) s = .next { s with pix := { s.pix with stencilWriteMask := wordBits d 7 0 } } ∧
    exec (.stencilFunc d) s = .next { s with pix := { s.pix with stencilFunc := d } } ∧
    exec (.stencilFuncRef d) s = .next { s with pix := { s.pix with stencilRef := wordBits d 7 0 } } ∧
    exec (.stencilFuncMask d) s = .next { s with pix := { s.pix with stencilFuncMask := wordBits d 7 0 } }

/-- The stencil operation, blend, logic and mask methods (R521, R526 to R529, R531, R537 to R541): as the others. -/
def Obligations.OutputStateMethods : Prop :=
  ∀ (d : Word) (s : State),
    exec (.stencilOpFail d) s = .next { s with pix := { s.pix with stencilOpFail := d } } ∧
    exec (.stencilOpZfail d) s = .next { s with pix := { s.pix with stencilOpZfail := d } } ∧
    exec (.stencilOpZpass d) s = .next { s with pix := { s.pix with stencilOpZpass := d } } ∧
    exec (.blendEnable d) s = .next { s with pix := { s.pix with blendEn := wordBit d 0 } } ∧
    exec (.blendFuncSfactor d) s = .next { s with pix := { s.pix with blendSfactor := d } } ∧
    exec (.blendFuncDfactor d) s = .next { s with pix := { s.pix with blendDfactor := d } } ∧
    exec (.blendColor d) s = .next { s with pix := { s.pix with blendColor := d } } ∧
    exec (.blendEquation d) s = .next { s with pix := { s.pix with blendEq := d } } ∧
    exec (.logicOpEnable d) s = .next { s with pix := { s.pix with logicOpEn := wordBit d 0 } } ∧
    exec (.logicOp d) s = .next { s with pix := { s.pix with logicOp := d } } ∧
    exec (.colorMask d) s = .next { s with
      pix := { s.pix with cmaskB := wordBit d 0, cmaskG := wordBit d 8, cmaskR := wordBit d 16, cmaskA := wordBit d 24 } }

/-- The memory frame of every instruction: one that does not draw leaves every byte of memory; one that draws leaves every byte that is
no colour or zeta byte of a pixel inside the clip rectangle (R583, R586). -/
def Obligations.StoresStayInRenderTarget : Prop :=
  ∀ (i : Instr) (s t : State), exec i s = .next t →
    (drawsPixels i = false → ∀ a, memByte t.bus.mem a = memByte s.bus.mem a) ∧
    (drawsPixels i = true → ∀ a, ¬ targetByte s.surf a → memByte t.bus.mem a = memByte s.bus.mem a)

/-- A pixel that fails a test (R550 to R554). One that fails the alpha test, or with the stencil test off the depth test, leaves every
byte of memory. A failed stencil test, and a failed depth test with the stencil test on, on a Z24S8 buffer: the stencil takes the
operation's result, on-fail or on-zfail, through the write mask, the depth stays, and no other byte changes; on a Z16 buffer, which has
no stencil, no byte changes. -/
def Obligations.FailedPixelWrites : Prop :=
  ∀ (d : Draw) (x y : Nat) (z src : Word) (b : Bus),
    let zs := unpackZeta d.surf.zetaFmt (zetaWord d x y b)
    let cmp := compare d.enums
    let raw := stencilRaw d.enums
    let cmpS := cmp d.pix.stencilFunc (d.pix.stencilRef &&& d.pix.stencilFuncMask).toNat (zs.2 &&& d.pix.stencilFuncMask).toNat
    let cmpZ := cmp d.pix.depthFunc (depthOf d.surf.zetaFmt z) zs.1
    let keeps := ∃ b', pixel d x y z src b = .ok b' ∧ memoryKept b b'
    let stores := fun (r : BitVec 8) => ∃ b', pixel d x y z src b = .ok b' ∧
      (zetaWord d x y b').toNat = (zetaWord d x y b).toNat / 256 * 256 + (stencilMerged d.pix zs.2 r).toNat ∧
      ∀ a, ¬ inBytes a (zetaAddr d.surf x y) 4 → memByte b'.mem a = memByte b.mem a
    (d.pix.alphaTestEn = true → cmp d.pix.alphaFunc (wordBits src 31 24).toNat d.pix.alphaRef.toNat = .ok false → keeps) ∧
    ((d.pix.alphaTestEn = true → cmp d.pix.alphaFunc (wordBits src 31 24).toNat d.pix.alphaRef.toNat = .ok true) →
      zetaOk d.surf = true →
      (d.pix.stencilTestEn = false → d.pix.depthTestEn = true → cmpZ = .ok false → keeps) ∧
      (d.pix.stencilTestEn = true → cmpS = .ok false → ∀ r, raw d.pix.stencilOpFail d.pix.stencilRef zs.2 = .ok r →
        (d.surf.zetaFmt = 1 → keeps) ∧
        (d.surf.zetaFmt = 2 → inClip d.surf x y = true → colorOk d.surf = true → inRange d.who 4 (zetaAddr d.surf x y) → stores r)) ∧
      (d.pix.stencilTestEn = true → cmpS = .ok true → d.pix.depthTestEn = true → cmpZ = .ok false →
        ∀ r, raw d.pix.stencilOpZfail d.pix.stencilRef zs.2 = .ok r →
        (d.surf.zetaFmt = 1 → keeps) ∧
        (d.surf.zetaFmt = 2 → inClip d.surf x y = true → colorOk d.surf = true → inRange d.who 4 (zetaAddr d.surf x y) → stores r)))

/-- A pixel whose tests pass or are off (R550 to R555): the colour that the logic operation, the blend or neither makes is packed (R582)
and written through the channel mask (R211); where the zeta buffer is in use the new depth is written if the depth test and depth writes
are on, else the stored one, and the stencil takes the on-zpass operation's result through its write mask; no other byte changes, and no
diagnostic is raised where a test that is on has its buffer. The packed word and the mask are given channel by channel. -/
def Obligations.PassedPixelWritesBack : Prop :=
  (∀ (d : Draw) (x y : Nat) (z src col : Word) (r : BitVec 8) (b : Bus),
    let zt := zetaOk d.surf && (d.pix.depthTestEn || d.pix.stencilTestEn)
    let zs := unpackZeta d.surf.zetaFmt (zetaWord d x y b)
    let fmt := d.surf.colorFmt
    let onColor := fun a => inBytes a (colorAddr d.surf x y) (colorBpp fmt)
    let onZeta := fun a => inBytes a (zetaAddr d.surf x y) (zetaBpp d.surf.zetaFmt)
    let depth := if d.pix.depthTestEn && d.pix.depthWriteEn then depthOf d.surf.zetaFmt z else zs.1
    inClip d.surf x y = true → colorOk d.surf = true → testsPass d z src zs.1 zs.2 →
    shadesTo d.enums d.pix src (unpackColor fmt (colorWord d x y b)) col → inRange d.who (colorBpp fmt) (colorAddr d.surf x y) →
    (zt = true → inRange d.who (zetaBpp d.surf.zetaFmt) (zetaAddr d.surf x y) ∧ ∀ a, ¬ (onColor a ∧ onZeta a)) →
    (zt = true → d.pix.stencilTestEn = true → stencilRaw d.enums d.pix.stencilOpZpass d.pix.stencilRef zs.2 = .ok r) →
    ∃ b', pixel d x y z src b = .ok b' ∧
      colorWord d x y b' =
        merge (colorWord d x y b) (packColor fmt col) (chanMask fmt d.pix.cmaskR d.pix.cmaskG d.pix.cmaskB d.pix.cmaskA) ∧
      (zt = true → d.surf.zetaFmt = 1 → (zetaWord d x y b').toNat = depth) ∧
      (zt = true → d.surf.zetaFmt = 2 →
        (zetaWord d x y b').toNat = depth * 256 + (if d.pix.stencilTestEn then stencilMerged d.pix zs.2 r else zs.2).toNat) ∧
      (∀ a, ¬ onColor a → ¬ (zt = true ∧ onZeta a) → memByte b'.mem a = memByte b.mem a) ∧
      ((d.pix.depthTestEn = true ∨ d.pix.stencilTestEn = true → zetaOk d.surf = true) → b'.diag = b.diag)) ∧
  (∀ col : Word,
    let ch := fun n => col.toNat / 256 ^ n % 256
    (packColor 3 col).toNat = ch 2 / 8 * 2 ^ 11 + ch 1 / 4 * 2 ^ 5 + ch 0 / 8 ∧ (packColor 9 col).toNat = ch 0 ∧
    (packColor 4 col).toNat = col.toNat % 2 ^ 24 ∧ (packColor 5 col).toNat = 0xFF * 2 ^ 24 + col.toNat % 2 ^ 24 ∧ packColor 8 col = col) ∧
  ∀ (fmt : BitVec 4) (r g b a : Bool) (n : Nat), n < 32 →
    (fmt = 4 ∨ fmt = 5 ∨ fmt = 8 → (chanMask fmt r g b a).getLsbD n = if n < 8 then b else if n < 16 then g else if n < 24 then r else a) ∧
    (fmt = 3 → (chanMask fmt r g b a).getLsbD n = if n < 5 then b else if n < 11 then g else if n < 16 then r else false) ∧
    (fmt = 9 → (chanMask fmt r g b a).getLsbD n = if n < 8 then b else false)

/-- Blending (R560, R561), channel by channel: FUNC_ADD, FUNC_SUBTRACT and FUNC_REVERSE_SUBTRACT of the source and the destination, each
scaled by its factor over 255, cut to 0..255; so FUNC_ADD with ONE and ZERO gives the source colour. MIN and MAX take each channel's own
extreme whatever the factors hold, a word that is no factor too: that such a word is not looked at there is the model's reading of R598
(assumption log 29). An equation with factors, each a member of its enumeration, gives a colour, never a refusal. The words of the
enumerations are the parameter `ENUMS`; the last clauses give its defaults (R152). -/
def Obligations.BlendEquations : Prop :=
  (∀ (e : Enums) (p : PixelState) (src dst : Word) (f g : FactorFn),
    let eq := fun k => e.equation.lookup p.blendEq = some k
    let legal := e.factor.lookup p.blendSfactor = some f ∧ e.factor.lookup p.blendDfactor = some g
    let S := fun n => (byteOf src n).toNat * factorOf f n src dst p.blendColor / 255
    let D := fun n => (byteOf dst n).toNat * factorOf g n src dst p.blendColor / 255
    (eq .add → legal → blendsTo e p src dst fun n => min (S n + D n) 255) ∧
    (eq .subtract → legal → blendsTo e p src dst fun n => S n - D n) ∧
    (eq .reverseSubtract → legal → blendsTo e p src dst fun n => D n - S n) ∧
    (eq .add → legal → f = .one → g = .zero → blend e p src dst = .ok src) ∧
    (eq .min → blendsTo e p src dst fun n => min (byteOf src n).toNat (byteOf dst n).toNat) ∧
    (eq .max → blendsTo e p src dst fun n => max (byteOf src n).toNat (byteOf dst n).toNat) ∧
    (isMember e.equation p.blendEq = true → legal → ∃ w, blend e p src dst = .ok w)) ∧
  Enums.init.equation = [(0x8006, .add), (0x8007, .min), (0x8008, .max), (0x800A, .subtract), (0x800B, .reverseSubtract)] ∧
  Enums.init.factor =
    [(0x0000, .zero), (0x0001, .one), (0x0300, .srcColor), (0x0301, .oneMinusSrcColor), (0x0302, .srcAlpha), (0x0303, .oneMinusSrcAlpha),
      (0x0304, .dstAlpha), (0x0305, .oneMinusDstAlpha), (0x0306, .dstColor), (0x0307, .oneMinusDstColor), (0x0308, .srcAlphaSaturate),
      (0x8001, .constantColor), (0x8002, .oneMinusConstantColor), (0x8003, .constantAlpha), (0x8004, .oneMinusConstantAlpha)]

/-- The comparisons (R550), logic operations (R570) and stencil operations (R554). The comparison that stands k-th in its enumeration
holds where bit 0, 1 or 2 of k is set, by whether the first number is less, equal or greater. The logic operation that stands k-th is the
truth table k, bit by bit: bit 0 of k for both set, bit 1 for the source alone, bit 2 for the destination alone, bit 3 for neither. Each
stencil operation's value is merged bit by bit through the write mask. A word outside its enumeration is refused (R598). The words of the
enumerations are the parameter `ENUMS`; by default (R152) the comparisons are 0x200 + k, the logic operations 0x1500 + k. -/
def Obligations.ComparisonsAndOperations : Prop :=
  (∀ (e : Enums) (f : Word) (a b : Nat),
    (∀ k, e.compare.lookup f = some k →
      compare e f a b = .ok ((compareCode k).testBit (if a < b then 0 else if a = b then 1 else 2))) ∧
    (e.compare.lookup f = none → compare e f a b = .error (.badEnum f))) ∧
  (∀ (e : Enums) (op s d : Word),
    (∀ k, e.logic.lookup op = some k → ∃ w, logicOp e op s d = .ok w ∧ ∀ n, n < 32 → w.getLsbD n =
      (logicCode k).testBit (if s.getLsbD n then (if d.getLsbD n then 0 else 1) else if d.getLsbD n then 2 else 3)) ∧
    (e.logic.lookup op = none → logicOp e op s d = .error (.badEnum op))) ∧
  (∀ (e : Enums) (p : PixelState) (op : Word) (st : BitVec 8),
    let gives := fun (k : StencilFn) (r : Nat) => e.stencil.lookup op = some k → ∃ w, stencilOp e p op st = .ok w ∧
      ∀ n, n < 8 → w.getLsbD n = if p.stencilWriteMask.getLsbD n then r.testBit n else st.getLsbD n
    gives .zero 0 ∧ gives .invert (255 - st.toNat) ∧ gives .keep st.toNat ∧ gives .replace p.stencilRef.toNat ∧
    gives .incr (min (st.toNat + 1) 255) ∧ gives .decr (st.toNat - 1) ∧ gives .incrWrap ((st.toNat + 1) % 256) ∧
    gives .decrWrap ((st.toNat + 255) % 256) ∧ (e.stencil.lookup op = none → stencilOp e p op st = .error (.badEnum op))) ∧
  (∀ (k : Nat) (f : Word), k < 8 → f.toNat = 0x200 + k → ∃ c, Enums.init.compare.lookup f = some c ∧ compareCode c = k) ∧
  (∀ (k : Nat) (op : Word), k < 16 → op.toNat = 0x1500 + k → ∃ c, Enums.init.logic.lookup op = some c ∧ logicCode c = k) ∧
  (∀ w : Word, (isMember Enums.init.compare w = true ↔ 0x200 ≤ w.toNat ∧ w.toNat ≤ 0x207) ∧
    (isMember Enums.init.logic w = true ↔ 0x1500 ≤ w.toNat ∧ w.toNat ≤ 0x150F)) ∧
  Enums.init.stencil =
    [(0x0000, .zero), (0x150A, .invert), (0x1E00, .keep), (0x1E01, .replace), (0x1E02, .incr), (0x1E03, .decr), (0x8507, .incrWrap),
      (0x8508, .decrWrap)]

/-! ### Textures and combiners -/

/-- The texture methods of the four units (R420 to R425): each field takes its bits of the data word; nothing else changes. -/
def Obligations.TextureMethods : Prop :=
  ∀ (d : Word) (s : State),
    let off := fun n => { texUnit s.tex n with offset := d }
    let fmt := fun n => { texUnit s.tex n with
      fmt := wordBits d 15 8, mips := wordBits d 19 16, log2u := wordBits d 23 20, log2v := wordBits d 27 24 }
    let adr := fun n => { texUnit s.tex n with addr := d }
    let ct0 := fun n => { texUnit s.tex n with enable := wordBit d 30, colorKey := wordBits d 1 0 }
    let ct1 := fun n => { texUnit s.tex n with pitch := wordBits d 31 16 }
    let rec' := fun n => { texUnit s.tex n with rw := wordBits d 31 16, rh := wordBits d 15 0 }
    setsUnit (exec (.textureOffset0 d) s) s 0 (off 0) ∧ setsUnit (exec (.textureOffset1 d) s) s 1 (off 1) ∧
    setsUnit (exec (.textureOffset2 d) s) s 2 (off 2) ∧ setsUnit (exec (.textureOffset3 d) s) s 3 (off 3) ∧
    setsUnit (exec (.textureFormat0 d) s) s 0 (fmt 0) ∧ setsUnit (exec (.textureFormat1 d) s) s 1 (fmt 1) ∧
    setsUnit (exec (.textureFormat2 d) s) s 2 (fmt 2) ∧ setsUnit (exec (.textureFormat3 d) s) s 3 (fmt 3) ∧
    setsUnit (exec (.textureAddress0 d) s) s 0 (adr 0) ∧ setsUnit (exec (.textureAddress1 d) s) s 1 (adr 1) ∧
    setsUnit (exec (.textureAddress2 d) s) s 2 (adr 2) ∧ setsUnit (exec (.textureAddress3 d) s) s 3 (adr 3) ∧
    setsUnit (exec (.textureControl0N0 d) s) s 0 (ct0 0) ∧ setsUnit (exec (.textureControl0N1 d) s) s 1 (ct0 1) ∧
    setsUnit (exec (.textureControl0N2 d) s) s 2 (ct0 2) ∧ setsUnit (exec (.textureControl0N3 d) s) s 3 (ct0 3) ∧
    setsUnit (exec (.textureControl1N0 d) s) s 0 (ct1 0) ∧ setsUnit (exec (.textureControl1N1 d) s) s 1 (ct1 1) ∧
    setsUnit (exec (.textureControl1N2 d) s) s 2 (ct1 2) ∧ setsUnit (exec (.textureControl1N3 d) s) s 3 (ct1 3) ∧
    setsUnit (exec (.textureImageRect0 d) s) s 0 (rec' 0) ∧ setsUnit (exec (.textureImageRect1 d) s) s 1 (rec' 1) ∧
    setsUnit (exec (.textureImageRect2 d) s) s 2 (rec' 2) ∧ setsUnit (exec (.textureImageRect3 d) s) s 3 (rec' 3)

/-- The texels of a block (R445 to R448, R436). DXT1: where the two reference colours are equal every texel is that colour, opaque,
whatever its code; where `c0 > c1` the opaque colour of the four-colour palette; where `c0 < c1` that of the three-colour palette, code 3
being 0. DXT3 and DXT5: the palette of the parameter `DXT35_COLOR_MODE`, four-colour by default whatever the order of the two, with the
alpha of 4 bits a texel, and of the 8-entry alpha palette. The block is read, and memory stays. The model's own: what the parameter's
other values are and do (assumption log 38, DESIGN CHOICE), and that the addresses within a block wrap modulo 2^32 (log 37, DEDUCED). -/
def Obligations.BlockTexels : Prop :=
  ∀ (q : Who) (m : DxtColorMode) (a : Word) (i : Nat) (b : Bus),
    let rd := fun n (k : Word) => (memRead q n (a + k) b).1
    let code := fun (k : Word) => rd 4 k / 4 ^ i % 4
    let four := paletteFour (rd 2 8) (rd 2 10) (code 12)
    let three := fun k => if code 12 = 3 then 0 else paletteThree (rd 2 8) (rd 2 10) (code 12) k
    let rgb := match m with
      | .four => four
      | .three => three
      | .byOrder => if rd 2 10 < rd 2 8 then four else if rd 2 8 < rd 2 10 then three else channel565 (rd 2 8)
    let a0 := rd 1 0
    let a1 := rd 1 1
    let j := rd 6 2 / 8 ^ i % 8
    (rd 2 0 = rd 2 2 → texelIs (sampleDxt1 q a i b).1 0xFF (channel565 (rd 2 0))) ∧
    (rd 2 2 < rd 2 0 → texelIs (sampleDxt1 q a i b).1 0xFF (paletteFour (rd 2 0) (rd 2 2) (code 4))) ∧
    (rd 2 0 < rd 2 2 → code 4 = 3 → (sampleDxt1 q a i b).1 = 0) ∧
    (rd 2 0 < rd 2 2 → code 4 ≠ 3 → texelIs (sampleDxt1 q a i b).1 0xFF (paletteThree (rd 2 0) (rd 2 2) (code 4))) ∧
    texelIs (sampleDxt3 q m a i b).1 (e4 (rd 8 0 / 16 ^ i % 16)) rgb ∧
    texelIs (sampleDxt5 q m a i b).1
      (if a1 < a0 then
        [a0, a1, (6 * a0 + a1) / 7, (5 * a0 + 2 * a1) / 7, (4 * a0 + 3 * a1) / 7, (3 * a0 + 4 * a1) / 7, (2 * a0 + 5 * a1) / 7,
          (a0 + 6 * a1) / 7].getD j 0
       else [a0, a1, (4 * a0 + a1) / 5, (3 * a0 + 2 * a1) / 5, (2 * a0 + 3 * a1) / 5, (a0 + 4 * a1) / 5, 0, 255].getD j 0) rgb ∧
    (sampleDxt1 q a i b).2.mem = b.mem ∧ (sampleDxt3 q m a i b).2.mem = b.mem ∧ (sampleDxt5 q m a i b).2.mem = b.mem

/-- Texture coordinates and sampling (R430 to R434, R440 to R444, R449). `tcoord`: of a rectangle unit the floor of each coordinate, of
another the floor of its product with the size, rounded first; the floor is 0 for a NaN and saturates at the ends of 32 bits. `sample`:
an unsupported format gives texel 0 with a diagnostic, a rectangle of no width or height too, and neither reads memory. Else the
coordinates wrap to the one texel congruent to them; its address is in Morton order, or by the pitch of a rectangle, or that of its
block; an uncompressed texel's four channels are the expanded fields of the little-endian word there. That a block address is modulo
2^32, as R431 and R433 have it of a texel address, is the model's reading of R432 (assumption log 37, DEDUCED). -/
def Obligations.TextureSampling : Prop :=
  (∀ (t : TexUnit) (u v : Word),
    let rect := t.fmt = 0x10 ∨ t.fmt = 0x11 ∨ t.fmt = 0x12 ∨ t.fmt = 0x1D ∨ t.fmt = 0x1E
    let floorIs := fun (x : Word) (n : Int) =>
      (fIsNaN x = true → n = 0) ∧ (fIsInf x = true → n = if fSign x then -2 ^ 31 else 2 ^ 31 - 1) ∧
      (fIsFinite x = true →
        (fFix x < -2 ^ 31 * 2 ^ 149 → n = -2 ^ 31) ∧ (2 ^ 31 * 2 ^ 149 ≤ fFix x → n = 2 ^ 31 - 1) ∧
        (-2 ^ 31 * 2 ^ 149 ≤ fFix x → fFix x < 2 ^ 31 * 2 ^ 149 → n * 2 ^ 149 ≤ fFix x ∧ fFix x < (n + 1) * 2 ^ 149))
    (rect → floorIs u (tcoord t u v).1 ∧ floorIs v (tcoord t u v).2) ∧
    (¬ rect → floorIs (fMul u (fOfInt ((2 ^ t.log2u.toNat : Nat) : Int))) (tcoord t u v).1 ∧
      floorIs (fMul v (fOfInt ((2 ^ t.log2v.toNat : Nat) : Int))) (tcoord t u v).2)) ∧
  ∀ (q : Who) (m : DxtColorMode) (t : TexUnit) (ui vi : Int) (b : Bus),
    let rect := t.fmt = 0x10 ∨ t.fmt = 0x11 ∨ t.fmt = 0x12 ∨ t.fmt = 0x1D ∨ t.fmt = 0x1E
    let known := rect ∨ t.fmt = 0x02 ∨ t.fmt = 0x04 ∨ t.fmt = 0x05 ∨ t.fmt = 0x06 ∨ t.fmt = 0x07 ∨ t.fmt = 0x0C ∨ t.fmt = 0x0E ∨
      t.fmt = 0x0F
    let w := if rect then t.rw.toNat else 2 ^ t.log2u.toNat
    let h := if rect then t.rh.toNat else 2 ^ t.log2v.toNat
    let dil := min t.log2u.toNat t.log2v.toNat
    let r := sample q m t (ui, vi) b
    (¬ known → r = (0, raise q .unsupportedTextureFormat b)) ∧
    (rect → w = 0 ∨ h = 0 → r = (0, raise q .emptyTexture b)) ∧
    ∀ x y : Nat, x < w → y < h → (ui - x) % w = 0 → (vi - y) % h = 0 →
      let at' := fun bpp => t.offset + BitVec.ofNat 32 (if rect then y * t.pitch.toNat + x * bpp else (dilate0 x dil + dilate1 y dil) * bpp)
      let block := fun size => t.offset + BitVec.ofNat 32 ((y / 4 * max 1 (w / 4) + x / 4) * size)
      let c := (memRead q 2 (at' 2) b).1
      let bits := fun hi lo => c / 2 ^ lo % 2 ^ (hi + 1 - lo)
      let channels := fun (A R G B : Nat) => r.1.toNat = 2 ^ 24 * A + 2 ^ 16 * R + 2 ^ 8 * G + B ∧ r.2 = (memRead q 2 (at' 2) b).2
      (t.fmt = 0x06 ∨ t.fmt = 0x12 → r.1.toNat = (memRead q 4 (at' 4) b).1 ∧ r.2 = (memRead q 4 (at' 4) b).2) ∧
      (t.fmt = 0x07 ∨ t.fmt = 0x1E →
        r.1.toNat = 0xFF * 2 ^ 24 + (memRead q 4 (at' 4) b).1 % 2 ^ 24 ∧ r.2 = (memRead q 4 (at' 4) b).2) ∧
      (t.fmt = 0x05 ∨ t.fmt = 0x11 → channels 0xFF (e5 (bits 15 11)) (e6 (bits 10 5)) (e5 (bits 4 0))) ∧
      (t.fmt = 0x02 ∨ t.fmt = 0x10 → channels (bits 15 15 * 0xFF) (e5 (bits 14 10)) (e5 (bits 9 5)) (e5 (bits 4 0))) ∧
      (t.fmt = 0x04 ∨ t.fmt = 0x1D → channels (e4 (bits 15 12)) (e4 (bits 11 8)) (e4 (bits 7 4)) (e4 (bits 3 0))) ∧
      (t.fmt = 0x0C → r = sampleDxt1 q (block 8) (4 * (y % 4) + x % 4) b) ∧
      (t.fmt = 0x0E → r = sampleDxt3 q m (block 16) (4 * (y % 4) + x % 4) b) ∧
      (t.fmt = 0x0F → r = sampleDxt5 q m (block 16) (4 * (y % 4) + x % 4) b)

/-- The combiner methods (R470 to R476): each word is stored, the stage count capped at 8 with a diagnostic; nothing else changes. -/
def Obligations.CombinerMethods : Prop :=
  ∀ (st : BitVec 3) (d : Word) (s : State),
    setsStage (exec (.combinerColorIcw st d) s) s st { stageAt s.cmb st.toNat with cicw := d } ∧
    setsStage (exec (.combinerAlphaIcw st d) s) s st { stageAt s.cmb st.toNat with aicw := d } ∧
    setsStage (exec (.combinerColorOcw st d) s) s st { stageAt s.cmb st.toNat with cocw := d } ∧
    setsStage (exec (.combinerAlphaOcw st d) s) s st { stageAt s.cmb st.toNat with aocw := d } ∧
    setsStage (exec (.combinerFactor0 st d) s) s st { stageAt s.cmb st.toNat with fac0 := d } ∧
    setsStage (exec (.combinerFactor1 st d) s) s st { stageAt s.cmb st.toNat with fac1 := d } ∧
    exec (.combinerSpecularFogCw0 d) s = .next { s with cmb := { s.cmb with fcw0 := d } } ∧
    exec (.combinerSpecularFogCw1 d) s = .next { s with cmb := { s.cmb with fcw1 := d } } ∧
    exec (.specularFogFactor 0 d) s = .next { s with cmb := { s.cmb with ffac0 := d } } ∧
    exec (.specularFogFactor 1 d) s = .next { s with cmb := { s.cmb with ffac1 := d } } ∧
    ∃ t, exec (.combinerControl d) s = .next t ∧
      t = { s with cmb := { s.cmb with stages := BitVec.ofNat 4 (min (d.toNat % 256) 8) }, bus := t.bus } ∧
      t.bus = { s.bus with diag := s.bus.diag ++ (if 8 < d.toNat % 256 then [⟨.cmbStages, s.cur, (curChan s).get⟩] else []) }

/-- A general combiner stage (R481 to R487). Its inputs are the registers that the codes name, the stage's two constants among them,
with the RGB triplet, blue or alpha selected and the mapping function applied; AB and CD are products or dot products, the third result
their sum or the mux by the stage-start alpha of spare0; each goes through the output mapping; the six results are written in order, AB,
CD, sum or mux, of the RGB portion and then of the alpha portion (that order among diagnostics of the two portions is the model's
reading, assumption log 30). Each write replaces its portion of the register of its code alone; code 0 discards; a code that is not
writable drops the write with a diagnostic. -/
def Obligations.GeneralCombinerStage : Prop :=
  (∀ g : CmbRegs, g.final = false →
    (∀ code, code = 6 ∨ code = 7 ∨ code = 14 ∨ code = 15 → cmbReg g code = .error .cmbReserved) ∧
    [0, 1, 2, 3, 4, 5, 8, 9, 10, 11, 12, 13].map (cmbReg g) =
      [⟨0, 0, 0, 0⟩, g.color0, g.color1, g.fog, g.primary, g.secondary, g.tex0, g.tex1, g.tex2, g.tex3, g.spare0, g.spare1].map .ok) ∧
  (∀ (g : CmbRegs) (byte : BitVec 8) (v : Vec4), cmbReg g (byte.extractLsb' 0 4) = .ok v →
    let m := cmbMap (byte.extractLsb' 5 3)
    cmbInputRgb g byte = .ok (if byte.getLsbD 4 then ⟨m v.w, m v.w, m v.w⟩ else ⟨m v.x, m v.y, m v.z⟩) ∧
    cmbInputAlpha g byte = .ok (m (if byte.getLsbD 4 then v.w else v.z))) ∧
  (∀ x : Word,
    let p := if fLt 0 x then x else 0
    cmbMap 0 x = p ∧ cmbMap 1 x = fSub 0x3F800000 (fMin p 0x3F800000) ∧ cmbMap 2 x = fSub (fMul 0x40000000 p) 0x3F800000 ∧
    cmbMap 3 x = fAdd (fMul 0xC0000000 p) 0x3F800000 ∧ cmbMap 4 x = fSub p 0x3F000000 ∧
    cmbMap 5 x = fAdd (p ^^^ 0x80000000) 0x3F000000 ∧ cmbMap 6 x = x ∧ cmbMap 7 x = x ^^^ 0x80000000) ∧
  (∀ (q : Who) (st : CmbStage) (g : CmbRegs) (bus : Bus) (A B C D : Rgb) (a b c d : Word),
    let g0 := { g with color0 := from8v st.fac0, color1 := from8v st.fac1 }
    let op := (wordBits st.cocw 17 15).toNat
    let opA := (wordBits st.aocw 17 15).toNat
    let mux := fGe g.spare0.w 0x3F000000
    let om := fun (v : Rgb) => Rgb.mk (outmapOf op v.r) (outmapOf op v.g) (outmapOf op v.b)
    let prod := fun (dot : Bool) (p r : Rgb) =>
      let n := fAdd (fAdd (fMul p.r r.r) (fMul p.g r.g)) (fMul p.b r.b)
      if dot then Rgb.mk n n n else ⟨fMul p.r r.r, fMul p.g r.g, fMul p.b r.b⟩
    let ab := prod (wordBit st.cocw 13) A B
    let cd := prod (wordBit st.cocw 12) C D
    let sm := if wordBit st.cocw 14 then (if mux then cd else ab) else ⟨fAdd ab.r cd.r, fAdd ab.g cd.g, fAdd ab.b cd.b⟩
    let smA := if wordBit st.aocw 14 then (if mux then fMul c d else fMul a b) else fAdd (fMul a b) (fMul c d)
    let rgb := fun (ocw : Word) hi (v : Rgb) (r : CmbRegs × Bus) =>
      cmbWrite q (BitVec.ofNat 4 (ocw.toNat / 2 ^ hi)) (fun w => ⟨v.r, v.g, v.b, w.w⟩) r
    let alpha := fun (ocw : Word) hi (v : Word) (r : CmbRegs × Bus) =>
      cmbWrite q (BitVec.ofNat 4 (ocw.toNat / 2 ^ hi)) (fun w => ⟨w.x, w.y, w.z, v⟩) r
    op ≠ 5 → op ≠ 7 → opA ≠ 5 → opA ≠ 7 →
    [cmbInputRgb g0 (byteOf st.cicw 3), cmbInputRgb g0 (byteOf st.cicw 2), cmbInputRgb g0 (byteOf st.cicw 1),
      cmbInputRgb g0 (byteOf st.cicw 0)] = [.ok A, .ok B, .ok C, .ok D] →
    [cmbInputAlpha g0 (byteOf st.aicw 3), cmbInputAlpha g0 (byteOf st.aicw 2), cmbInputAlpha g0 (byteOf st.aicw 1),
      cmbInputAlpha g0 (byteOf st.aicw 0)] = [.ok a, .ok b, .ok c, .ok d] →
    generalStage q st (g, bus) =
      .ok (alpha st.aocw 8 (outmapOf opA smA) (alpha st.aocw 0 (outmapOf opA (fMul c d)) (alpha st.aocw 4 (outmapOf opA (fMul a b))
        (rgb st.cocw 8 (om sm) (rgb st.cocw 0 (om cd) (rgb st.cocw 4 (om ab) (g0, bus)))))))) ∧
  ∀ (q : Who) (code other : BitVec 4) (upd : Vec4 → Vec4) (g : CmbRegs) (b : Bus),
    let writable := code = 4 ∨ code = 5 ∨ 8 ≤ code.toNat ∧ code.toNat ≤ 13
    let r := cmbWrite q code upd (g, b)
    (writable → ∃ v, cmbReg g code = .ok v ∧ cmbReg r.1 code = .ok (upd v)) ∧
    (¬ (writable ∧ other = code) → cmbReg r.1 other = cmbReg g other) ∧
    r.2 = if writable ∨ code = 0 then b else { b with diag := b.diag ++ [⟨.cmbBadDest, q.ch, q.get⟩] }

/-- `combine` and the final combiner. At the start of a pixel the registers hold the vertex colour, the four texels, and zeros (R480);
the stages run in order, each on what the one before left, then the final combiner, whose colour is packed (R485, R490). The final
combiner (R488, R489): `A * B + (1 - A) * C + D` cut at 1, from inputs that see its two constants, the sum clamp and the product of E
and F, which E and F themselves do not; alpha is the input G. A NaN in the sum clamp counts as 0 before its sum (assumption log 19). So
the pass-through configuration (R495), no stage and `fcw0 = 0x04200000`, gives the primary colour exactly, for every primary colour in
[0, 1]. -/
def Obligations.CombineAndFinalStage : Prop :=
  (∀ (p : Vec4) (t0 t1 t2 t3 : Word),
    [1, 2, 3, 4, 5, 8, 9, 10, 11, 12, 13].map (cmbReg (cmbInit p t0 t1 t2 t3)) =
      [.zero, .zero, .zero, p, .zero, from8v t0, from8v t1, from8v t2, from8v t3, .zero, .zero].map .ok) ∧
  (∀ (q : Who) (c : Combiner) (p v : Vec4) (t0 t1 t2 t3 : Word) (b : Bus) (r : Nat → CmbRegs × Bus),
    r 0 = (cmbInit p t0 t1 t2 t3, b) → (∀ k, k < c.stages.toNat → generalStage q (stageAt c k) (r k) = .ok (r (k + 1))) →
    finalStage c (r c.stages.toNat).1 = .ok v →
    ∃ w, combine q c p t0 t1 t2 t3 b = .ok (w, (r c.stages.toNat).2) ∧
      byteOf w 3 = to8 v.w ∧ byteOf w 2 = to8 v.x ∧ byteOf w 1 = to8 v.y ∧ byteOf w 0 = to8 v.z) ∧
  (∀ (c : Combiner) (g : CmbRegs) (A B C D E F : Rgb) (G : Word),
    let pos := fun x => if fLt 0 x then x else 0
    let sum := fun x y => fMin (pos (fAdd (pos x) (pos y))) 0x3F800000
    let out := fun a b c d =>
      let x := fAdd (fAdd (fMul a b) (fMul (fSub 0x3F800000 a) c)) d
      if fLt 0x3F800000 x then 0x3F800000 else x
    let h := { g with
      color0 := from8v c.ffac0, color1 := from8v c.ffac1
      sumclamp := ⟨sum g.spare0.x g.secondary.x, sum g.spare0.y g.secondary.y, sum g.spare0.z g.secondary.z, 0⟩ }
    let k := { h with ef := ⟨fMul E.r F.r, fMul E.g F.g, fMul E.b F.b, 0⟩, final := true }
    [cmbInputRgb h (byteOf c.fcw1 3), cmbInputRgb h (byteOf c.fcw1 2)] = [.ok E, .ok F] →
    [cmbInputRgb k (byteOf c.fcw0 3), cmbInputRgb k (byteOf c.fcw0 2), cmbInputRgb k (byteOf c.fcw0 1), cmbInputRgb k (byteOf c.fcw0 0)] =
      [.ok A, .ok B, .ok C, .ok D] →
    cmbInputAlpha k (byteOf c.fcw1 1) = .ok G →
    cmbReg k 14 = .ok k.sumclamp ∧ cmbReg k 15 = .ok k.ef ∧
    finalStage c g = .ok ⟨out A.r B.r C.r D.r, out A.g B.g C.g D.g, out A.b B.b C.b D.b, G⟩) ∧
  ∀ (q : Who) (c : Combiner) (p : Vec4) (t0 t1 t2 t3 : Word) (b : Bus),
    c.stages = 0 → c.fcw0 = 0x04200000 → stageCode (byteOf c.fcw1 3) = true → stageCode (byteOf c.fcw1 2) = true →
    finalCode (byteOf c.fcw1 1) = true →
    p.x.toNat ≤ 0x3F800000 → p.y.toNat ≤ 0x3F800000 → p.z.toNat ≤ 0x3F800000 →
    (∃ v, finalStage c (cmbInit p t0 t1 t2 t3) = .ok v ∧ v.x = p.x ∧ v.y = p.y ∧ v.z = p.z) ∧
    ∃ w, combine q c p t0 t1 t2 t3 b = .ok (w, b) ∧ byteOf w 2 = to8 p.x ∧ byteOf w 1 = to8 p.y ∧ byteOf w 0 = to8 p.z

/-! ### Transform and vertex program -/

/-- The matrix, viewport, vertex-program upload and control methods (R280 to R282, R300 to R305): one word of the named matrix; one
component of the viewport vector and of the constant that mirrors it, 59 for the offset and 58 for the scale; where an uploaded word
goes, how the cursors move, and the constant word that is dropped with a diagnostic past 191. Nothing else changes. -/
def Obligations.TransformAndProgramMethods : Prop :=
  (∀ (k : BitVec 4) (c : BitVec 2) (d : Word) (s : State),
    (∃ t, exec (.projectionMatrix k d) s = .next t ∧ t = { s with xf := { s.xf with proj := t.xf.proj } } ∧
      setsAt 0 s.xf.proj t.xf.proj k.toNat d) ∧
    (∃ t, exec (.modelViewMatrix k d) s = .next t ∧ t = { s with xf := { s.xf with modelview := t.xf.modelview } } ∧
      setsAt 0 s.xf.modelview t.xf.modelview k.toNat d) ∧
    (∃ t, exec (.inverseModelViewMatrix k d) s = .next t ∧ t = { s with xf := { s.xf with invModelview := t.xf.invModelview } } ∧
      setsAt 0 s.xf.invModelview t.xf.invModelview k.toNat d) ∧
    (∃ t, exec (.compositeMatrix k d) s = .next t ∧ t = { s with xf := { s.xf with composite := t.xf.composite } } ∧
      setsAt 0 s.xf.composite t.xf.composite k.toNat d) ∧
    (∃ t v, exec (.viewportOffset c d) s = .next t ∧
      t = { s with xf := { s.xf with vpOffset := t.xf.vpOffset }, vp := { s.vp with vpc := t.vp.vpc } } ∧
      (∀ m, Vec4.get t.xf.vpOffset m = if m = c then d else Vec4.get s.xf.vpOffset m) ∧
      setsAt .zero s.vp.vpc t.vp.vpc 59 v ∧ ∀ m, Vec4.get v m = if m = c then d else Vec4.get (bankGet .zero s.vp.vpc 59) m) ∧
    (∃ t v, exec (.viewportScale c d) s = .next t ∧
      t = { s with xf := { s.xf with vpScale := t.xf.vpScale }, vp := { s.vp with vpc := t.vp.vpc } } ∧
      (∀ m, Vec4.get t.xf.vpScale m = if m = c then d else Vec4.get s.xf.vpScale m) ∧
      setsAt .zero s.vp.vpc t.vp.vpc 58 v ∧ ∀ m, Vec4.get v m = if m = c then d else Vec4.get (bankGet .zero s.vp.vpc 58) m)) ∧
  ∀ (j : BitVec 5) (d : Word) (s : State),
    (∃ t, exec (.transformProgram j d) s = .next t ∧
      t = { s with vp := { s.vp with vpi := t.vp.vpi, word := t.vp.word, load := t.vp.load } } ∧
      (∀ i n, n < 4 → vpiAt t.vp i n = if i = s.vp.load.toNat ∧ n = s.vp.word.toNat then d else vpiAt s.vp i n) ∧
      t.vp.word.toNat = (s.vp.word.toNat + 1) % 4 ∧
      t.vp.load.toNat = if s.vp.word.toNat = 3 then (s.vp.load.toNat + 1) % 256 else s.vp.load.toNat) ∧
    (∃ t, exec (.transformConstant j d) s = .next t ∧
      t = { s with vp := { s.vp with vpc := t.vp.vpc, cWord := t.vp.cWord, cLoad := t.vp.cLoad }, bus := t.bus } ∧
      t.vp.cWord.toNat = (s.vp.cWord.toNat + 1) % 4 ∧
      t.vp.cLoad.toNat = (if s.vp.cWord.toNat = 3 then (s.vp.cLoad.toNat + 1) % 256 else s.vp.cLoad.toNat) ∧
      (∀ n k, Vec4.get (bankGet .zero t.vp.vpc n) k =
        if s.vp.cLoad.toNat < 192 ∧ n = s.vp.cLoad.toNat ∧ k = s.vp.cWord then d else Vec4.get (bankGet .zero s.vp.vpc n) k) ∧
      t.bus = { s.bus with
        diag := s.bus.diag ++ (if s.vp.cLoad.toNat < 192 then [] else [⟨.constOor, s.cur, (curChan s).get⟩]) }) ∧
    exec (.transformProgramLoad d) s = .next { s with vp := { s.vp with load := wordBits d 7 0, word := 0 } } ∧
    exec (.transformConstantLoad d) s = .next { s with vp := { s.vp with cLoad := wordBits d 7 0, cWord := 0 } } ∧
    exec (.transformExecutionMode d) s = .next { s with vp := { s.vp with mode := decide (d.toNat % 4 = 2) } } ∧
    exec (.transformProgramStart d) s = .next { s with vp := { s.vp with start := wordBits d 7 0 } }

/-- Every vector opcode with a legal scalar opcode beside it and legal operands completes, and writes back the vector result its rule
gives from the operands as they stood before it (R311 to R324). -/
def Obligations.VectorInstructions : Prop :=
  ∀ (sop : BitVec 4) (f : VpFields) (s : State),
    let A := operandValue s.vp f f.a
    let B := operandValue s.vp f f.b
    let C := operandValue s.vp f f.c
    let S := scalarResult s.par.numerics sop C
    let dot := fAdd (fAdd (fMul A.x B.x) (fMul A.y B.y)) (fMul A.z B.z)
    let done := fun (vop : BitVec 4) (V : Vec4) => Host.Outcome.next (φ := Fault) (ρ := Refusal) (afterWriteBack vop sop f V S A s)
    (vpLegal 0 sop f = true → exec (.vpNop sop f) s = done 0 .zero) ∧
    (vpLegal 1 sop f = true → exec (.vpMov sop f) s = done 1 A) ∧
    (vpLegal 2 sop f = true →
      exec (.vpMul sop f) s = done 2 ⟨fMul A.x B.x, fMul A.y B.y, fMul A.z B.z, fMul A.w B.w⟩) ∧
    (vpLegal 3 sop f = true →
      exec (.vpAdd sop f) s = done 3 ⟨fAdd A.x C.x, fAdd A.y C.y, fAdd A.z C.z, fAdd A.w C.w⟩) ∧
    (vpLegal 4 sop f = true →
      exec (.vpMad sop f) s =
        done 4 ⟨fAdd (fMul A.x B.x) C.x, fAdd (fMul A.y B.y) C.y, fAdd (fMul A.z B.z) C.z, fAdd (fMul A.w B.w) C.w⟩) ∧
    (vpLegal 5 sop f = true → exec (.vpDp3 sop f) s = done 5 ⟨dot, dot, dot, dot⟩) ∧
    (vpLegal 6 sop f = true →
      exec (.vpDph sop f) s = done 6 ⟨fAdd dot B.w, fAdd dot B.w, fAdd dot B.w, fAdd dot B.w⟩) ∧
    (vpLegal 7 sop f = true →
      exec (.vpDp4 sop f) s =
        done 7 ⟨fAdd dot (fMul A.w B.w), fAdd dot (fMul A.w B.w), fAdd dot (fMul A.w B.w), fAdd dot (fMul A.w B.w)⟩) ∧
    (vpLegal 8 sop f = true → exec (.vpDst sop f) s = done 8 ⟨0x3F800000, fMul A.y B.y, A.z, B.w⟩) ∧
    (vpLegal 9 sop f = true →
      exec (.vpMin sop f) s =
        done 9 ⟨if fLt A.x B.x then A.x else B.x, if fLt A.y B.y then A.y else B.y, if fLt A.z B.z then A.z else B.z,
          if fLt A.w B.w then A.w else B.w⟩) ∧
    (vpLegal 10 sop f = true →
      exec (.vpMax sop f) s =
        done 10 ⟨if fGe A.x B.x then A.x else B.x, if fGe A.y B.y then A.y else B.y, if fGe A.z B.z then A.z else B.z,
          if fGe A.w B.w then A.w else B.w⟩) ∧
    (vpLegal 11 sop f = true →
      exec (.vpSlt sop f) s =
        done 11 ⟨if fLt A.x B.x then 0x3F800000 else 0, if fLt A.y B.y then 0x3F800000 else 0, if fLt A.z B.z then 0x3F800000 else 0,
          if fLt A.w B.w then 0x3F800000 else 0⟩) ∧
    (vpLegal 12 sop f = true →
      exec (.vpSge sop f) s =
        done 12 ⟨if fGe A.x B.x then 0x3F800000 else 0, if fGe A.y B.y then 0x3F800000 else 0, if fGe A.z B.z then 0x3F800000 else 0,
          if fGe A.w B.w then 0x3F800000 else 0⟩) ∧
    (vpLegal 13 sop f = true → exec (.vpArl sop f) s = done 13 .zero)

/-- Every scalar opcode with a legal vector opcode beside it and legal operands completes, and writes back the scalar result its rule
gives from operand C (R329 to R337), the results of EXP, LOG and LIT with their corners. The model's own readings in them: which NaN
stands for a NaN result is open, and LIT of a NaN diffuse has y NaN and z 0 (assumption log 16, DESIGN CHOICE); `fExp2Trunc` of 128 and
more is the largest finite value, and z of +inf is +inf (log 17); y of EXP is -0.0 for -0.0 (log 35); `fPow` of a base of -inf or of an
infinite power takes IEEE's result where the base is negative (log 36, DESIGN CHOICE). `RCC_FN`, `EXP2_TRUNC`, `LOG2_FN` and `POW` are
parameters: where the machine's list names the operand its value is the result, else the default is (log 41). -/
def Obligations.ScalarInstructions : Prop :=
  ∀ (vop : BitVec 4) (f : VpFields) (s : State),
    let A := operandValue s.vp f f.a
    let C := operandValue s.vp f f.c
    let V := vectorResult vop A (operandValue s.vp f f.b) C
    let rcp := fDiv 0x3F800000 C.x
    let N := s.par.numerics
    let done := fun (sop : BitVec 4) (S : Vec4) => Host.Outcome.next (φ := Fault) (ρ := Refusal) (afterWriteBack vop sop f V S A s)
    (vpLegal vop 0 f = true → exec (.vpSNop vop f) s = done 0 .zero) ∧
    (vpLegal vop 1 f = true → exec (.vpSImv vop f) s = done 1 C) ∧
    (vpLegal vop 2 f = true → exec (.vpSRcp vop f) s = done 2 ⟨rcp, rcp, rcp, rcp⟩) ∧
    (vpLegal vop 3 f = true → ∃ q, exec (.vpSRcc vop f) s = done 3 ⟨q, q, q, q⟩ ∧
      (∀ v, N.rcc.lookup C.x = some v → q = v) ∧ (N.rcc.lookup C.x = none → q = rcp)) ∧
    (vpLegal vop 4 f = true → exec (.vpSRsq vop f) s = done 4 ⟨fRsq C.x, fRsq C.x, fRsq C.x, fRsq C.x⟩) ∧
    (vpLegal vop 5 f = true → ∃ S, exec (.vpSExp vop f) s = done 5 S ∧ S.w = 0x3F800000 ∧
      (fIsNaN C.x = true → fIsNaN S.x = true ∧ fIsNaN S.y = true ∧ fIsNaN S.z = true) ∧
      (fIsInf C.x = true → S.x = (if fSign C.x then 0 else 0x7F800000) ∧ fIsNaN S.y = true ∧ S.z = S.x) ∧
      (fIsFinite C.x = true → S = ⟨fPow2 (fFloorInt C.x), fSub C.x (fOfInt (fFloorInt C.x)), S.z, 0x3F800000⟩ ∧
        (∀ v, N.exp2.lookup C.x = some v → S.z = v) ∧ (N.exp2.lookup C.x = none → S.z = fExp2Trunc C.x))) ∧
    (vpLegal vop 6 f = true → ∃ S, exec (.vpSLog vop f) s = done 6 S ∧ S.w = 0x3F800000 ∧
      (fIsNaN C.x = true → fIsNaN S.x = true ∧ fIsNaN S.y = true ∧ fIsNaN S.z = true) ∧
      (fIsZero C.x = true → S = ⟨0xFF800000, 0x3F800000, 0xFF800000, 0x3F800000⟩) ∧
      (fIsInf C.x = true → S = ⟨0x7F800000, 0x3F800000, 0x7F800000, 0x3F800000⟩) ∧
      (fIsFinite C.x = true → fIsZero C.x = false → S = ⟨fOfInt (fExponent C.x), fMantissa C.x, S.z, 0x3F800000⟩ ∧
        (∀ v, N.log2.lookup (C.x &&& 0x7FFFFFFF) = some v → S.z = v) ∧
        (N.log2.lookup (C.x &&& 0x7FFFFFFF) = none → S.z = fLog2 C.x))) ∧
    (vpLegal vop 7 f = true → ∃ S, exec (.vpSLit vop f) s = done 7 S ∧ S.x = 0x3F800000 ∧ S.w = 0x3F800000 ∧
      (fIsNaN C.x = false → S.y = fMin (fMax C.x 0) 0x3F800000) ∧ (fIsNaN C.x = true → fIsNaN S.y = true) ∧
      (fLt 0 C.x = false → S.z = 0) ∧ (fLt 0 C.x = true →
        (∀ v, N.pow.lookup (C.y, C.w) = some v → S.z = v) ∧ (N.pow.lookup (C.y, C.w) = none → S.z = fPow C.y C.w)))

/-- The write-back of a vertex-program instruction, component by component (R309): the temporaries with the pairing to r1, the output or
constant with its range check and diagnostic, `a0x`; nothing else of the unit changes, and no byte of memory. -/
def Obligations.WriteBackRegisters : Prop :=
  ∀ (q : Who) (vop sop : BitVec 4) (f : VpFields) (v sc a : Vec4) (u : VProg) (b : Bus),
    let w := writeBack q vop sop f v sc a u b
    let bit := fun (m : BitVec 4) (k : BitVec 2) => m.getLsbD (3 - k.toNat)
    let vecOn := decide (vop ≠ 0 ∧ vop ≠ 13)
    let sd := if vecOn = true ∧ f.vtMask ≠ 0 then 1 else f.rDst.toNat
    let val := if f.oMux = 0 then v else sc
    let on := if f.oMux = 0 then vecOn else decide (sop ≠ 0)
    (∀ n k, Vec4.get (bankGet .zero w.1.r n) k =
      if sop ≠ 0 ∧ n = sd ∧ bit f.stMask k = true then Vec4.get sc k
      else if vecOn = true ∧ n = f.rDst.toNat ∧ bit f.vtMask k = true then Vec4.get v k
      else Vec4.get (bankGet .zero u.r n) k) ∧
    (∀ n k, Vec4.get (bankGet .zero w.1.o n) k =
      if on = true ∧ f.orb = 1 ∧ f.oAddr.toNat < 16 ∧ n = f.oAddr.toNat ∧ bit f.oMask k = true then Vec4.get val k
      else Vec4.get (bankGet .zero u.o n) k) ∧
    (∀ n k, Vec4.get (bankGet .zero w.1.vpc n) k =
      if on = true ∧ f.orb = 0 ∧ f.oAddr.toNat < 192 ∧ n = f.oAddr.toNat ∧ bit f.oMask k = true then Vec4.get val k
      else Vec4.get (bankGet .zero u.vpc n) k) ∧
    w.1.a0x = (if vop = 13 then BitVec.ofInt 32 (fFloorSat a.x) else u.a0x) ∧
    w.1 = { u with r := w.1.r, o := w.1.o, vpc := w.1.vpc, a0x := w.1.a0x } ∧
    w.2 = if on = true ∧ f.oMask ≠ 0 ∧ (f.orb = 1 ∧ 16 ≤ f.oAddr.toNat ∨ f.orb = 0 ∧ 192 ≤ f.oAddr.toNat) then
        { b with diag := b.diag ++ [⟨.vpOutOor, q.ch, q.get⟩] }
      else b

/-- A reserved opcode in either slot, or an operand of kind 0 that the opcodes read, is a refusal that names `vpip` (R340); a well-formed
instruction is never refused. -/
def Obligations.ReservedProgramInstructionsRefused : Prop :=
  ∀ (i : Instr) (s : State), isProgramInstr i = true →
    (WellFormed i = false → exec i s = .refused (.vpReserved s.vp.ip)) ∧
    (WellFormed i = true → ∃ t, exec i s = .next t)

/-- Operand assembly (R307, R308, R131, R132): the register of the kind, each component the one its selector names, the sign flipped
where the operand is negated; the constant index clamped to 0..191. -/
def Obligations.OperandAssembly : Prop :=
  ∀ (u : VProg) (f : VpFields) (o : VpOperand),
    (cidxEff f u.a0x : Int) = max 0 (min 191 ((f.cidx.toNat : Int) + if f.a0x = 1 then u.a0x.toInt else 0)) ∧
    (o.mux = 0 → operand u f o = .error (.vpReserved u.ip)) ∧
    (o.mux ≠ 0 → ∃ v, operand u f o = .ok v ∧ ∀ k : BitVec 2,
      let reg := if o.mux = 1 then bankGet .zero u.r o.reg.toNat
        else if o.mux = 2 then bankGet .zero u.v f.vidx.toNat else bankGet .zero u.vpc (cidxEff f u.a0x)
      let sel := BitVec.ofNat 2 (o.swz.toNat / 4 ^ (3 - k.toNat))
      Vec4.get v k = if o.neg = 1 then Vec4.get reg sel ^^^ 0x80000000 else Vec4.get reg sel)

/-- Every run of a vertex comes to its end (R306): from any start the loop needs no more than the instructions up to 256, so more turns
change nothing; the registers start from the vertex and from zeros. -/
def Obligations.ProgramRunEnds : Prop :=
  (∀ (par : Params) (q : Who) (n m : Nat) (u : VProg) (b : Bus), u.ip.toNat ≤ 256 → 257 ≤ u.ip.toNat + n → n ≤ m →
    vpLoop par q m u b = vpLoop par q n u b) ∧
  ∀ (par : Params) (q : Who) (vtx : Bank Vec4) (u : VProg) (b : Bus) (n : Nat), 257 ≤ n →
    vpRun par q vtx u b = vpLoop par q n { u with v := vtx, r := [], o := [], ip := BitVec.ofNat 9 u.start.toNat } b

/-! ### Vertices, primitives, triangles -/

/-- The vertex-array methods of the 16 slots (R250, R251): offset; or type, size, stride, and the inline buffer emptied. Nothing else
changes. -/
def Obligations.VertexArrayMethods : Prop :=
  ∀ (d : Word) (s : State),
    let off := fun (r : Run) n => setsSlot r s n { slotAt s.va n with offset := d } s.va.ibufN
    let fmt := fun (r : Run) n => setsSlot r s n
      { slotAt s.va n with type := wordBits d 3 0, size := wordBits d 7 4, stride := wordBits d 31 8 } 0
    off (exec (.vertexDataArrayOffset0 d) s) 0 ∧ off (exec (.vertexDataArrayOffset1 d) s) 1 ∧
    off (exec (.vertexDataArrayOffset2 d) s) 2 ∧ off (exec (.vertexDataArrayOffset3 d) s) 3 ∧
    off (exec (.vertexDataArrayOffset4 d) s) 4 ∧ off (exec (.vertexDataArrayOffset5 d) s) 5 ∧
    off (exec (.vertexDataArrayOffset6 d) s) 6 ∧ off (exec (.vertexDataArrayOffset7 d) s) 7 ∧
    off (exec (.vertexDataArrayOffset8 d) s) 8 ∧ off (exec (.vertexDataArrayOffset9 d) s) 9 ∧
    off (exec (.vertexDataArrayOffset10 d) s) 10 ∧ off (exec (.vertexDataArrayOffset11 d) s) 11 ∧
    off (exec (.vertexDataArrayOffset12 d) s) 12 ∧ off (exec (.vertexDataArrayOffset13 d) s) 13 ∧
    off (exec (.vertexDataArrayOffset14 d) s) 14 ∧ off (exec (.vertexDataArrayOffset15 d) s) 15 ∧
    fmt (exec (.vertexDataArrayFormat0 d) s) 0 ∧ fmt (exec (.vertexDataArrayFormat1 d) s) 1 ∧
    fmt (exec (.vertexDataArrayFormat2 d) s) 2 ∧ fmt (exec (.vertexDataArrayFormat3 d) s) 3 ∧
    fmt (exec (.vertexDataArrayFormat4 d) s) 4 ∧ fmt (exec (.vertexDataArrayFormat5 d) s) 5 ∧
    fmt (exec (.vertexDataArrayFormat6 d) s) 6 ∧ fmt (exec (.vertexDataArrayFormat7 d) s) 7 ∧
    fmt (exec (.vertexDataArrayFormat8 d) s) 8 ∧ fmt (exec (.vertexDataArrayFormat9 d) s) 9 ∧
    fmt (exec (.vertexDataArrayFormat10 d) s) 10 ∧ fmt (exec (.vertexDataArrayFormat11 d) s) 11 ∧
    fmt (exec (.vertexDataArrayFormat12 d) s) 12 ∧ fmt (exec (.vertexDataArrayFormat13 d) s) 13 ∧
    fmt (exec (.vertexDataArrayFormat14 d) s) 14 ∧ fmt (exec (.vertexDataArrayFormat15 d) s) 15

/-- The attributes of an array vertex (R252, R254): a slot of size 0 keeps the persistent attribute; another is read at its offset plus
the index times its stride, each component below the size converted by the slot's type, the others taking (0, 0, 0, 1); an unsupported
type gives zeros with a diagnostic; memory stays. The fourth component of type CMP is left open (assumption log 13); that the components'
addresses wrap modulo 2^32 from the attribute's is the model's reading (log 37, DEDUCED). -/
def Obligations.FetchedAttributes : Prop :=
  ∀ (q : Who) (slot : VaSlot) (a : Word) (b : Bus) (va : VertexArrays) (pvtx : Bank Vec4) (n : Word) (i : Nat),
    let r := fetchAttr q (memReader q) slot a b
    let byte := fun k => (memRead q 1 (a + BitVec.ofNat 32 k) b).1
    let half := fun k => (BitVec.ofNat 16 (memRead q 2 (a + BitVec.ofNat 32 (2 * k)) b).1).toInt
    let word := BitVec.ofNat 32 (memRead q 4 a b).1
    let rest := fun (k : BitVec 2) => if k = 3 then (0x3F800000 : Word) else 0
    r.2.mem = b.mem ∧
    (slot.type = 2 → ∀ k : BitVec 2, Vec4.get r.1 k =
      if k.toNat < slot.size.toNat then BitVec.ofNat 32 (memRead q 4 (a + BitVec.ofNat 32 (4 * k.toNat)) b).1 else rest k) ∧
    (slot.type = 4 → ∀ k : BitVec 2, Vec4.get r.1 k =
      if k.toNat < slot.size.toNat then fRoundInt (byte k.toNat) 255 else rest k) ∧
    (slot.type = 0 → ∀ k : BitVec 2, Vec4.get r.1 k =
      if k.toNat < slot.size.toNat then fRoundInt (byte (if k = 3 then 3 else 2 - k.toNat)) 255 else rest k) ∧
    (slot.type = 1 → ∀ k : BitVec 2, Vec4.get r.1 k =
      if k.toNat < slot.size.toNat then fRoundInt (half k.toNat) 32767 else rest k) ∧
    (slot.type = 5 → ∀ k : BitVec 2, Vec4.get r.1 k =
      if k.toNat < slot.size.toNat then fRoundInt (half k.toNat) 1 else rest k) ∧
    (slot.type = 6 →
      (r.1.x = if 0 < slot.size.toNat then fRoundInt (wordBits word 10 0).toInt 1023 else 0) ∧
      (r.1.y = if 1 < slot.size.toNat then fRoundInt (wordBits word 21 11).toInt 1023 else 0) ∧
      (r.1.z = if 2 < slot.size.toNat then fRoundInt (wordBits word 31 22).toInt 511 else 0) ∧
      (slot.size.toNat ≤ 3 → r.1.w = 0x3F800000)) ∧
    (slot.type = 3 ∨ 7 ≤ slot.type.toNat →
      r = (.zero, { b with diag := b.diag ++ [⟨.unsupportedVtxType, q.ch, q.get⟩] })) ∧
    (i < 16 → bankGet .zero (fetchVertex q va pvtx n b).1 i =
      if (slotAt va i).size = 0 then bankGet .zero pvtx i
      else (fetchAttr q (memReader q) (slotAt va i)
        (BitVec.ofNat 32 ((slotAt va i).offset.toNat + n.toNat * (slotAt va i).stride.toNat)) b).1)

/-- The vertex push methods in their forms that emit nothing (R256 to R260): components of the persistent vertex alone change. -/
def Obligations.VertexPushStores : Prop :=
  ∀ (n : BitVec 4) (c : BitVec 2) (d : Word) (s : State),
    let v := attr s n.toNat
    let lo := fOfInt (wordBits d 15 0).toInt
    let hi := fOfInt (wordBits d 31 16).toInt
    setsAttr (exec (.vertex3f0 d) s) s 0 { attr s 0 with x := d } ∧
    setsAttr (exec (.vertex3f1 d) s) s 0 { attr s 0 with y := d } ∧
    setsAttr (exec (.vertex4f0 d) s) s 0 { attr s 0 with x := d } ∧
    setsAttr (exec (.vertex4f1 d) s) s 0 { attr s 0 with y := d } ∧
    setsAttr (exec (.vertex4f2 d) s) s 0 { attr s 0 with z := d } ∧
    setsAttr (exec (.vertexData2fM n 0 d) s) s n.toNat { v with x := d } ∧
    setsAttr (exec (.vertexData4sM n 0 d) s) s n.toNat { v with x := lo, y := hi } ∧
    (n ≠ 0 → setsAttr (exec (.vertexData2fM n 1 d) s) s n.toNat ⟨v.x, d, 0, 0x3F800000⟩) ∧
    (n ≠ 0 → setsAttr (exec (.vertexData2s n d) s) s n.toNat ⟨lo, hi, 0, 0x3F800000⟩) ∧
    (n ≠ 0 → setsAttr (exec (.vertexData4sM n 1 d) s) s n.toNat { v with z := lo, w := hi }) ∧
    (n ≠ 0 → setsAttr (exec (.vertexData4ub n d) s) s n.toNat
      ⟨from8 (wordBits d 7 0), from8 (wordBits d 15 8), from8 (wordBits d 23 16), from8 (wordBits d 31 24)⟩) ∧
    (n ≠ 0 ∨ c ≠ 3 → ∃ t w, exec (.vertexData4fM n c d) s = .next t ∧ t = { s with pvtx := t.pvtx } ∧
      setsAt .zero s.pvtx t.pvtx n.toNat w ∧ ∀ k, Vec4.get w k = if k = c then d else Vec4.get v k)

/-- The vertex push methods in their forms that emit the persistent vertex (R255 to R260): where nothing that a draw reaches is a
refusal, each completes, with attribute 0 written first and one vertex emitted. -/
def Obligations.VertexPushEmits : Prop :=
  ∀ (d : Word) (s : State), drawReady s = true →
    let v := attr s 0
    let lo := fOfInt (wordBits d 15 0).toInt
    let hi := fOfInt (wordBits d 31 16).toInt
    setsAndEmits (exec (.vertex3f2 d) s) s { v with z := d, w := 0x3F800000 } ∧
    setsAndEmits (exec (.vertex4f3 d) s) s { v with w := d } ∧
    setsAndEmits (exec (.vertexData2fM 0 1 d) s) s ⟨v.x, d, 0, 0x3F800000⟩ ∧
    setsAndEmits (exec (.vertexData4fM 0 3 d) s) s { v with w := d } ∧
    setsAndEmits (exec (.vertexData2s 0 d) s) s ⟨lo, hi, 0, 0x3F800000⟩ ∧
    setsAndEmits (exec (.vertexData4sM 0 1 d) s) s { v with z := lo, w := hi } ∧
    setsAndEmits (exec (.vertexData4ub 0 d) s) s
      ⟨from8 (wordBits d 7 0), from8 (wordBits d 15 8), from8 (wordBits d 23 16), from8 (wordBits d 31 24)⟩

/-- The array draw methods (R262 to R264): where nothing that a draw reaches is a refusal, each completes, emitting the vertices of its
indices in order. -/
def Obligations.ArrayDrawsEmit : Prop :=
  ∀ (d : Word) (s : State), drawReady s = true →
    (∃ t, exec (.arrayElement32 d) s = .next t ∧ emitsIndexed s d t) ∧
    (∃ t u, exec (.arrayElement16 d) s = .next t ∧
      emitsIndexed s (BitVec.ofNat 32 (d.toNat % 2 ^ 16)) u ∧ emitsIndexed u (BitVec.ofNat 32 (d.toNat / 2 ^ 16)) t) ∧
    ∃ t, exec (.drawArrays d) s = .next t ∧ emitsRange (BitVec.ofNat 32 (d.toNat % 2 ^ 24)) (d.toNat / 2 ^ 24 + 1) s t

/-- INLINE_ARRAY (R265): with no slot enabled it only raises a diagnostic; else the word is stored, and when it completes a vertex, and
nothing that a draw reaches is a refusal, that vertex is emitted and the buffer emptied. -/
def Obligations.InlineArrayWord : Prop :=
  ∀ (d : Word) (s : State),
    (vaTotal s.va = 0 → raisesOnly (exec (.inlineArray d) s) s .emptyLayout) ∧
    (vaTotal s.va ≠ 0 → s.va.ibufN.toNat < 64 → s.va.ibufN.toNat + 1 ≠ vaTotal s.va →
      ∃ t, exec (.inlineArray d) s = .next t ∧
        t = { s with va := { s.va with ibuf := t.va.ibuf, ibufN := BitVec.ofNat 7 (s.va.ibufN.toNat + 1) } } ∧
        setsAt 0 s.va.ibuf t.va.ibuf s.va.ibufN.toNat d) ∧
    (s.va.ibufN.toNat < 64 → s.va.ibufN.toNat + 1 = vaTotal s.va → drawReady s = true →
      ∃ t va' vtx b, exec (.inlineArray d) s = .next t ∧
        va' = { s.va with ibuf := va'.ibuf, ibufN := BitVec.ofNat 7 (s.va.ibufN.toNat + 1) } ∧
        setsAt 0 s.va.ibuf va'.ibuf s.va.ibufN.toNat d ∧
        (vtx, b) = inlineVertex (who s) va' s.pvtx s.bus ∧ b.mem = s.bus.mem ∧ t.va = { va' with ibufN := 0 } ∧
        emitsOne { s with va := va', bus := b } vtx { t with va := va' })

/-- BEGIN_END (R270, R390): 0 closes the primitive; another word opens one, with its topology, no vertices, and the pixel shader chosen
from the combiner and texture state at hand; a value above 10 also raises a diagnostic. -/
def Obligations.BeginEndPrimitive : Prop :=
  ∀ (d : Word) (s : State),
    exec (.beginEnd 0) s = .next { s with prim := { s.prim with primType := 0 } } ∧
    (d ≠ 0 → exec (.beginEnd d) s = .next { s with
      prim := { s.prim with
        primType := if d.toNat ≤ 10 then BitVec.ofNat 4 d.toNat else 15
        vcount := 0
        rsel := if 1 ≤ s.cmb.stages.toNat then .combiner else if (texUnit s.tex 0).enable then .tex0 else .flat }
      bus := { s.bus with
        diag := s.bus.diag ++ (if d.toNat ≤ 10 then [] else [⟨.unsupportedTopology, s.cur, (curChan s).get⟩]) } })

/-- The assembler (R370, R371, R373): after any vertices of a primitive, the next one completes exactly the triangles of its topology,
each corner the vertex of its index in the primitive; the wrap of the ring is never visible. -/
def Obligations.AssembledTriangles : Prop :=
  ∀ (p : Prim) (vs : List TVertex) (t : TVertex), p.vcount = 0 → vs.length < 2 ^ 32 →
    let q := vs.foldl storeVertex p
    q.vcount.toNat = vs.length ∧
    completed (storeVertex q t) vs.length = trianglesOf p.primType vs.length fun k => (vs ++ [t]).getD k .zero

/-- The clipper (R381, R382, R383): a triangle with every vertex in front is rasterized from its own vertices, one with none is dropped;
the clipped polygon of the others has 3 vertices with one in front and 4 with two, all of them at or in front of the threshold. -/
def Obligations.ClipperPaths : Prop :=
  ∀ (d : Draw) (sel : Shader) (a b c : TVertex) (bus : Bus),
    let n := [a, b, c].countP fun t => fLt d.wEps t.w
    (n = 3 → triangle d sel a b c bus = raster d sel a b c bus) ∧
    (n = 0 → triangle d sel a b c bus = .ok bus) ∧
    (n = 1 → (clipPolygon d.wEps a b c).length = 3) ∧
    (n = 2 → (clipPolygon d.wEps a b c).length = 4) ∧
    ∀ t ∈ clipPolygon d.wEps a b c, t.w = d.wEps ∨ fLt d.wEps t.w = true

/-- Coverage (R392, R374): both windings of a triangle cover the same pixels, and of the two sides of an edge of distinct ends exactly
one owns a sample that lies on it. -/
def Obligations.CoverageRule : Prop :=
  (∀ (a b c : TVertex) (x y : Nat), covered a b c x y = covered a c b x y) ∧
  ∀ (p q : TVertex) (sx sy : Int), fFix p.x ≠ fFix q.x ∨ fFix p.y ≠ fFix q.y → inside p q sx sy = !inside q p sx sy

/-! ### Reset and invariants -/

/-- The state after reset (R650, R651): every channel runs with `GET = PUT = 0` and no burst, so none is enabled; nothing is bound; no
surface is supported; no primitive is open; fixed function; no stage, no texture unit; the interrupt output low; the log empty. -/
def Obligations.ResetState : Prop :=
  let s := State.reset
  (∀ ch, chanAt s ch = ⟨0, 0, .run, ⟨0, 0, 0, false, false, false⟩⟩ ∧ enabled s ch = false) ∧
  (∀ ch subc, subAt s ch subc = ⟨0, 0⟩ ∧ ∀ m, regAt s ch subc m = 0) ∧
  colorOk s.surf = false ∧ zetaOk s.surf = false ∧ s.prim.primType = 0 ∧ s.vp.mode = false ∧
  (∀ k, bankGet 0 s.xf.composite k = 0) ∧ s.cmb.stages = 0 ∧ (∀ n, (texUnit s.tex n).enable = false) ∧
  s.pix.alphaTestEn = false ∧ s.pix.depthTestEn = false ∧ s.pix.stencilTestEn = false ∧ s.pix.blendEn = false ∧
  s.pix.logicOpEn = false ∧ s.pix.cmaskA = true ∧ s.pix.cmaskR = true ∧ s.pix.cmaskG = true ∧ s.pix.cmaskB = true ∧
  s.pix.depthWriteEn = true ∧ s.pix.stencilWriteMask = 0xFF ∧ drawReady s = true ∧ s.irq.line = false ∧ s.irq.callbacks = [] ∧
  s.bus.diag = []

/-- The reset state meets the invariant; the canonical forms in it are the model's own (assumption log 23). -/
def Obligations.ResetMeetsInvariant : Prop := Inv State.reset = true

/-- Every step keeps memory in its canonical form, with no address at or above `PHYS_SIZE` listed (R80, R84). The form is the model's own
(assumption logs 1 and 23). -/
def Obligations.StepKeepsMemoryForm : Prop := ∀ s t : State, memoryInv s = true → step s = .next t → memoryInv t = true

/-- Every step keeps the whole invariant: memory, the interrupt line as `update_irq` leaves it and the record of its changes (R604,
R605), the bursts (R34), the topology and stage count (R270, R473), and every bank within its size (R32 to R48). The canonical forms are
the model's own (assumption log 23). -/
def Obligations.StepKeepsInvariant : Prop := ∀ s t : State, Inv s = true → step s = .next t → Inv t = true

end
end

