-- ==== Sys2Proof/Laws/Bank.lean ====
section
/-! SUPPORT. The laws of a sparse bank: what a write leaves at each index, that it keeps the canonical form and the range of
indices, and that canonical banks with equal contents are equal. -/

namespace Sys2Proof.Machine
open Sys2Proof

variable {α : Type} [DecidableEq α] {d : α}

omit [DecidableEq α] in
theorem bankGet_erase_same (b : Bank α) (i : Nat) : bankGet d (bankErase b i) i = d := by
  induction b with
  | nil => rfl
  | cons e rest ih =>
    obtain ⟨k, v⟩ := e
    by_cases h : i = k
    · simp [bankErase, h] at ih ⊢; exact ih
    · simp [bankErase, bankGet, h, ih]

omit [DecidableEq α] in
theorem bankGet_erase_other (b : Bank α) {i j : Nat} (h : j ≠ i) : bankGet d (bankErase b i) j = bankGet d b j := by
  induction b with
  | nil => rfl
  | cons e rest ih =>
    obtain ⟨k, v⟩ := e
    by_cases hi : i = k
    · subst hi; simp [bankErase, bankGet, h, ih]
    · simp [bankErase, bankGet, hi, ih]

omit [DecidableEq α] in
theorem bankGet_insert_other (b : Bank α) {i j : Nat} (v : α) (h : j ≠ i) :
    bankGet d (bankInsert b i v) j = bankGet d b j := by
  induction b with
  | nil => simp [bankInsert, bankGet, h]
  | cons e rest ih =>
    obtain ⟨k, x⟩ := e
    by_cases hi : i < k
    · simp [bankInsert, hi, bankGet, h]
    · simp [bankInsert, hi, bankGet, ih]

/-- No entry has index `i`. -/
def bankFree (b : Bank α) (i : Nat) : Prop := ∀ e ∈ b, e.1 ≠ i

omit [DecidableEq α] in
theorem bankErase_free (b : Bank α) (i : Nat) : bankFree (bankErase b i) i := by
  induction b with
  | nil => intro e he; cases he
  | cons e rest ih =>
    obtain ⟨k, v⟩ := e
    by_cases h : i = k
    · simpa [bankErase, h] using h ▸ ih
    · intro x hx
      simp [bankErase, h] at hx
      rcases hx with rfl | hx
      · exact fun hk => h hk.symm
      · exact ih x hx

omit [DecidableEq α] in
theorem bankGet_insert_same (b : Bank α) (i : Nat) (v : α) (h : bankFree b i) : bankGet d (bankInsert b i v) i = v := by
  induction b with
  | nil => simp [bankInsert, bankGet]
  | cons e rest ih =>
    obtain ⟨k, x⟩ := e
    have hk : i ≠ k := fun hk => h (k, x) (by simp) hk.symm
    have hr : bankFree rest i := fun e he => h e (by simp [he])
    by_cases hi : i < k
    · simp [bankInsert, hi, bankGet]
    · simp [bankInsert, hi, bankGet, hk, ih hr]

@[simp] theorem bankGet_set_same (b : Bank α) (i : Nat) (v : α) : bankGet d (bankSet d b i v) i = v := by
  by_cases h : v = d
  · simp [bankSet, h, bankGet_erase_same]
  · simp [bankSet, h, bankGet_insert_same _ _ _ (bankErase_free b i)]

theorem bankGet_set_other (b : Bank α) {i j : Nat} (v : α) (h : j ≠ i) : bankGet d (bankSet d b i v) j = bankGet d b j := by
  by_cases hv : v = d
  · simp [bankSet, hv, bankGet_erase_other b h]
  · simp [bankSet, hv, bankGet_insert_other _ v h, bankGet_erase_other b h]

/-- What a write leaves at each index. -/
theorem bankGet_set (b : Bank α) (i j : Nat) (v : α) :
    bankGet d (bankSet d b i v) j = if j = i then v else bankGet d b j := by
  by_cases h : j = i
  · simp [h]
  · simp [h, bankGet_set_other b v h]

/-! ### Membership -/

omit [DecidableEq α] in
theorem mem_bankErase {b : Bank α} {i : Nat} {e : Nat × α} (h : e ∈ bankErase b i) : e ∈ b ∧ e.1 ≠ i := by
  induction b with
  | nil => cases h
  | cons x rest ih =>
    obtain ⟨k, v⟩ := x
    by_cases hk : i = k
    · have := ih (by simpa [bankErase, hk] using h)
      exact ⟨by simp [this.1], this.2⟩
    · simp [bankErase, hk] at h
      rcases h with rfl | h
      · exact ⟨by simp, fun hh => hk hh.symm⟩
      · exact ⟨by simp [(ih h).1], (ih h).2⟩

omit [DecidableEq α] in
theorem mem_bankInsert {b : Bank α} {i : Nat} {v : α} {e : Nat × α} (h : e ∈ bankInsert b i v) : e = (i, v) ∨ e ∈ b := by
  induction b with
  | nil => simpa [bankInsert] using h
  | cons x rest ih =>
    obtain ⟨k, y⟩ := x
    by_cases hk : i < k
    · simpa [bankInsert, hk] using h
    · simp [bankInsert, hk] at h
      rcases h with rfl | h
      · simp
      · rcases ih h with h | h
        · exact .inl h
        · exact .inr (by simp [h])

/-- An entry of a written bank is the one written or an old one of another index. -/
theorem mem_bankSet {b : Bank α} {i : Nat} {v : α} {e : Nat × α} (h : e ∈ bankSet d b i v) : e = (i, v) ∨ e ∈ b := by
  by_cases hv : v = d
  · exact .inr (mem_bankErase (by simpa [bankSet, hv] using h)).1
  · rcases mem_bankInsert (by simpa [bankSet, hv] using h) with h | h
    · exact .inl h
    · exact .inr (mem_bankErase h).1

/-- A property of every entry that the written entry has is kept. -/
theorem bankSet_all {p : Nat × α → Bool} {b : Bank α} {i : Nat} {v : α} (hv : p (i, v) = true) (hb : b.all p = true) :
    (bankSet d b i v).all p = true := by
  rw [List.all_eq_true] at *
  intro e he
  rcases mem_bankSet he with rfl | he
  · exact hv
  · exact hb e he

/-! ### The canonical form -/

theorem bankWfFrom_mono {b : Bank α} {lo lo' : Nat} (h : lo' ≤ lo) (hb : bankWfFrom d lo b = true) : bankWfFrom d lo' b = true := by
  cases b with
  | nil => rfl
  | cons e rest =>
    obtain ⟨k, v⟩ := e
    simp [bankWfFrom] at hb ⊢
    exact ⟨⟨by omega, hb.1.2⟩, hb.2⟩

theorem bankWfFrom_erase {b : Bank α} {lo : Nat} (i : Nat) (hb : bankWfFrom d lo b = true) :
    bankWfFrom d lo (bankErase b i) = true := by
  induction b generalizing lo with
  | nil => rfl
  | cons e rest ih =>
    obtain ⟨k, v⟩ := e
    simp [bankWfFrom] at hb
    by_cases h : i = k
    · simpa [bankErase, h] using bankWfFrom_mono (by omega) (h ▸ ih hb.2)
    · simp [bankErase, h, bankWfFrom, hb.1, ih hb.2]

theorem bankWfFrom_insert {b : Bank α} {lo i : Nat} {v : α} (hi : lo ≤ i) (hv : v ≠ d) (hf : bankFree b i)
    (hb : bankWfFrom d lo b = true) : bankWfFrom d lo (bankInsert b i v) = true := by
  induction b generalizing lo with
  | nil => simp [bankInsert, bankWfFrom, hi, hv]
  | cons e rest ih =>
    obtain ⟨k, x⟩ := e
    have hk : k ≠ i := hf (k, x) (by simp)
    simp [bankWfFrom] at hb
    by_cases h : i < k
    · simp [bankInsert, h, bankWfFrom, hi, hv, hb.1.2, hb.2]
    · simp [bankInsert, h, bankWfFrom, hb.1]
      exact ih (by omega) (fun e he => hf e (by simp [he])) hb.2

/-- A write keeps the canonical form. -/
theorem bankWf_set {b : Bank α} (i : Nat) (v : α) (hb : bankWf d b = true) : bankWf d (bankSet d b i v) = true := by
  by_cases hv : v = d
  · simpa [bankSet, hv, bankWf] using bankWfFrom_erase i hb
  · simpa [bankSet, hv, bankWf] using bankWfFrom_insert (Nat.zero_le i) hv (bankErase_free b i) (bankWfFrom_erase i hb)

/-- A write at an index of the bank keeps the range of indices. -/
theorem bankBelow_set {b : Bank α} {n i : Nat} {v : α} (hi : i < n) (hb : bankBelow n b = true) :
    bankBelow n (bankSet d b i v) = true := by
  unfold bankBelow at *
  exact bankSet_all (by simpa using hi) hb

omit [DecidableEq α] in
/-- An index at or above the range holds the default. -/
theorem bankGet_of_below {b : Bank α} {n i : Nat} (hb : bankBelow n b = true) (hi : n ≤ i) : bankGet d b i = d := by
  induction b with
  | nil => rfl
  | cons e rest ih =>
    obtain ⟨k, v⟩ := e
    simp [bankBelow] at hb ih
    have : i ≠ k := by omega
    simp [bankGet, this]
    exact ih hb.2

theorem bankGet_of_wfFrom {b : Bank α} {lo i : Nat} (hb : bankWfFrom d lo b = true) (hi : i < lo) : bankGet d b i = d := by
  induction b generalizing lo with
  | nil => rfl
  | cons e rest ih =>
    obtain ⟨k, v⟩ := e
    simp [bankWfFrom] at hb
    have : i ≠ k := by omega
    simpa [bankGet, this] using ih hb.2 (by omega)

/-- Canonical banks with equal contents are equal. -/
theorem bank_ext {a b : Bank α} {lo : Nat} (ha : bankWfFrom d lo a = true) (hb : bankWfFrom d lo b = true)
    (h : ∀ i, bankGet d a i = bankGet d b i) : a = b := by
  induction a generalizing b lo with
  | nil =>
    cases b with
    | nil => rfl
    | cons e rest =>
      obtain ⟨k, v⟩ := e
      simp [bankWfFrom] at hb
      have := h k
      simp [bankGet] at this
      exact absurd this.symm hb.1.2
  | cons e rest ih =>
    obtain ⟨k, v⟩ := e
    simp [bankWfFrom] at ha
    cases b with
    | nil =>
      have := h k
      simp [bankGet] at this
      exact absurd this ha.1.2
    | cons e' rest' =>
      obtain ⟨k', v'⟩ := e'
      simp [bankWfFrom] at hb
      rcases Nat.lt_trichotomy k k' with hk | hk | hk
      · have := h k
        rw [bankGet, if_pos rfl, bankGet, if_neg (by omega), bankGet_of_wfFrom hb.2 (by omega)] at this
        exact absurd this ha.1.2
      · subst hk
        have hv := h k
        simp [bankGet] at hv
        subst hv
        congr 1
        refine ih ha.2 hb.2 fun i => ?_
        by_cases hi : i = k
        · subst hi
          rw [bankGet_of_wfFrom ha.2 (by omega), bankGet_of_wfFrom hb.2 (by omega)]
        · simpa [bankGet, hi] using h i
      · have := h k'
        rw [bankGet, if_neg (by omega), bankGet_of_wfFrom ha.2 (by omega), bankGet, if_pos rfl] at this
        exact absurd this.symm hb.1.2

/-- Canonical banks with equal contents are equal. -/
theorem bankWf_ext {a b : Bank α} (ha : bankWf d a = true) (hb : bankWf d b = true) (h : ∀ i, bankGet d a i = bankGet d b i) :
    a = b := bank_ext ha hb h

end Sys2Proof.Machine
end

