-- ==== Sys2Proof/Laws/Decode.lean ====
section
/-! SUPPORT. The decoders at the default tables (R10): each is said once in the form its rule gives, so that a proof cites the lemma and
does not unfold a table. -/

namespace Sys2Proof

/-! ### Command words (R110) -/

@[simp] theorem decodeCommandBy_nil (w : Word) : decodeCommandBy [] w = .invalid w := rfl

theorem decodeCommandBy_cons (r : CommandRow) (rest : List CommandRow) (w : Word) :
    decodeCommandBy (r :: rest) w = if w &&& r.mask = r.pattern then commandOf r.kind w else decodeCommandBy rest w := rfl

/-- A command word is what a row makes of it, or INVALID. -/
theorem decodeCommandBy_cases (rows : List CommandRow) (w : Word) :
    decodeCommandBy rows w = .invalid w ∨ ∃ r ∈ rows, w &&& r.mask = r.pattern ∧ decodeCommandBy rows w = commandOf r.kind w := by
  induction rows with
  | nil => exact .inl rfl
  | cons r rest ih =>
    rw [decodeCommandBy_cons]
    split
    · exact .inr ⟨r, by simp, ‹_›, rfl⟩
    · exact ih.imp_right fun ⟨r', h, h'⟩ => ⟨r', by simp [h], h'⟩

/-- The default table as one chain of its match conditions. -/
theorem decodeCommand_eq (w : Word) :
    decodeCommand w =
      if w &&& 0x00000003 = 0x00000001 then .jump (field w 2 30)
      else if w &&& 0x00000003 = 0x00000002 then .call (field w 2 30)
      else if w &&& 0xE0030003 = 0x00000000 then .increasing (field w 2 11) (field w 13 3) (field w 18 11)
      else if w &&& 0xE0030003 = 0x40000000 then .nonincreasing (field w 2 11) (field w 13 3) (field w 18 11)
      else if w &&& 0xFFFF0003 = 0x00030000 then .longNonincreasing (field w 2 11) (field w 13 3)
      else if w &&& 0xFFFFFFFF = 0x00020000 then .ret
      else if w &&& 0xE0000003 = 0x20000000 then .oldJump (field w 2 27)
      else if w &&& 0xFFFF0003 = 0x00010000 then .sliConditional (field w 2 14)
      else .invalid w := rfl

/-! ### Methods (R121, R122) -/

/-- A row of the default `METHOD_MAP` leaves an address where it is. -/
theorem find_methodRanges (a : Nat) :
    (methodRanges.find? fun r => r.holds a) = (methodMap.find? fun r => r.holds a).map fun r => ⟨r.base, r.slots, r.base⟩ := by
  unfold methodRanges
  generalize methodMap = rows
  induction rows with
  | nil => rfl
  | cons r rest ih =>
    by_cases h : r.holds a = true
    · have h' : MethodRange.holds ⟨r.base, r.slots, r.base⟩ a = true := h
      simp [h, h']
    · have h' : ¬ MethodRange.holds ⟨r.base, r.slots, r.base⟩ a = true := h
      simp [h, h', ih]

/-- A method write by the default map is what the table of R121 has at its own address. -/
theorem decodeMethod_eq (m : BitVec 11) (d : Word) : decodeMethod m d = methodAt (4 * m.toNat) d := by
  unfold decodeMethod decodeMethodBy
  rw [find_methodRanges]
  cases h : methodMap.find? fun r => r.holds (4 * m.toNat) with
  | none => simp [methodAt, h]
  | some r =>
    have hr := List.find?_some h
    simp only [MethodRow.holds, Bool.and_eq_true, decide_eq_true_eq] at hr
    simp only [Option.map_some]
    congr 1
    omega

/-! ### Vertex-program instructions (R130) -/

/-- The vector opcode of the default layout is bits 24 to 21 of `w1`. -/
@[simp] theorem vpVopBy_default (ws : VpWords) : vpVopBy vpLayout ws = field ws.w1 21 4 := rfl

/-- The scalar opcode of the default layout is bits 28 to 25 of `w1`. -/
@[simp] theorem vpSopBy_default (ws : VpWords) : vpSopBy vpLayout ws = field ws.w1 25 4 := rfl

/-- The fields of the default layout. -/
theorem vpFieldsBy_default (w0 w1 w2 w3 : Word) :
    vpFieldsBy vpLayout ⟨w0, w1, w2, w3⟩ =
      { cidx := field w1 13 8
        vidx := field w1 9 4
        a := ⟨field w1 8 1, field w1 0 8, field w2 28 4, field w2 26 2⟩
        b := ⟨field w2 25 1, field w2 17 8, field w2 13 4, field w2 11 2⟩
        c := ⟨field w2 10 1, field w2 2 8, field w2 0 2 ++ field w3 30 2, field w3 28 2⟩
        vtMask := field w3 24 4
        rDst := field w3 20 4
        stMask := field w3 16 4
        oMask := field w3 12 4
        orb := field w3 11 1
        oAddr := field w3 3 8
        oMux := field w3 2 1
        a0x := field w3 1 1
        final := field w3 0 1 } := rfl

/-! ### The decoder as the step uses it -/

/-- A word of the command slot decodes to its command. -/
@[simp] theorem decodeBy_command (t : Tables) (w : Word) : decodeBy t .command [w] = .ok (decodeCommandBy t.cmdDecode w) := rfl

/-- A word of the bind slot decodes to the bind of that handle. -/
@[simp] theorem decodeBy_bind (t : Tables) (w : Word) : decodeBy t .bind [w] = .ok (.bindObject w) := rfl

/-- A data word decodes to the method of its address, where the map holds it. -/
theorem decodeBy_method (t : Tables) (m : BitVec 11) (d : Word) (i : Instr) :
    decodeBy t (.method m) [d] = .ok i ↔ decodeMethodBy t.methodMap m d = some i := by
  unfold decodeBy
  cases h : decodeMethodBy t.methodMap m d <;> simp [h]

end Sys2Proof
end

