-- ==== Sys2Proof/Laws/Float32.lean ====
section
/-! SUPPORT. The laws of binary32 that claims lean on: a value that is representable is rounded to itself, so multiplying by one and adding
zero are exact. -/

namespace Sys2Proof.Machine
open Sys2Proof

theorem fAbsNat_lt (x : Word) : fAbsNat x < 2 ^ 31 := Nat.mod_lt _ (by norm_num)

/-- A pattern is its sign and its magnitude. -/
theorem fPack_self (x : Word) : fPack (fSign x) (fAbsNat x) = x := by
  apply BitVec.eq_of_toNat_eq
  have := x.isLt
  simp only [fPack, fSign, fAbsNat, BitVec.toNat_ofNat, decide_eq_true_eq]
  split <;> omega

theorem log2_eq {n k : Nat} (h1 : 2 ^ k ≤ n) (h2 : n < 2 ^ (k + 1)) : Nat.log2 n = k := by
  have hn : n ≠ 0 := by have := Nat.two_pow_pos k; omega
  exact (Nat.log2_eq_iff hn).mpr ⟨h1, h2⟩

theorem divNearest_exact (n d : Nat) (hd : 0 < d) : divNearest (n * d) d = n := by
  simp [divNearest, Nat.mul_div_cancel _ hd, Nat.mul_mod_left]
  omega

/-- The exponent of a magnitude over a power of two. -/
theorem ratExp_pow {n k b : Nat} (h1 : 2 ^ k ≤ n) (h2 : n < 2 ^ (k + 1)) : ratExp n (2 ^ b) = (k : Int) - b := by
  have hr : ratReaches n (2 ^ b) ((k : Int) - b) = true := by
    unfold ratReaches
    split
    · next h =>
      rw [decide_eq_true_eq, ← Nat.pow_add, show b + ((k : Int) - b).toNat = k by omega]
      exact h1
    · next h =>
      rw [decide_eq_true_eq, show (-((k : Int) - b)).toNat = b - k by omega]
      calc 2 ^ b = 2 ^ k * 2 ^ (b - k) := by rw [← Nat.pow_add]; congr 1; omega
        _ ≤ n * 2 ^ (b - k) := Nat.mul_le_mul_right _ h1
  simp [ratExp, log2_eq h1 h2, Nat.log2_two_pow, hr]

/-- A representable magnitude, over any power of two, has its own pattern. -/
theorem ratPattern_exact (x : Word) (j top : Nat) (hx : fIsFinite x = true) :
    ratPattern divNearest top (fMag x * 2 ^ j) (2 ^ (149 + j)) = fAbsNat x := by
  have hf : fAbsNat x < 0x7F800000 := by simpa [fIsFinite] using hx
  have hdm : fAbsNat x = fAbsNat x / 2 ^ 23 * 2 ^ 23 + fAbsNat x % 2 ^ 23 := (Nat.div_add_mod' _ _).symm
  have hm : fAbsNat x % 2 ^ 23 < 2 ^ 23 := Nat.mod_lt _ (by norm_num)
  have hel : fAbsNat x / 2 ^ 23 < 255 := by omega
  generalize hE : fAbsNat x / 2 ^ 23 = e at *
  generalize hM : fAbsNat x % 2 ^ 23 = m at *
  unfold ratPattern
  have hpos : ∀ k, 0 < 2 ^ k := Nat.two_pow_pos
  by_cases he : e = 0
  · have hmag : fMag x = m := by unfold fMag; simp only [hE, hM, he, if_true]
    by_cases h0 : m = 0
    · simp [hmag, h0]; omega
    · rw [if_neg (by rw [hmag]; exact Nat.mul_ne_zero h0 (hpos j).ne')]
      have hlo : 2 ^ (Nat.log2 m) ≤ m := Nat.log2_self_le h0
      have hhi : m < 2 ^ (Nat.log2 m + 1) := Nat.lt_log2_self
      have hk : Nat.log2 m < 23 := (Nat.log2_lt h0).mpr hm
      have hexp : ratExp (fMag x * 2 ^ j) (2 ^ (149 + j)) = ((Nat.log2 m + j : Nat) : Int) - (149 + j : Nat) := by
        apply ratExp_pow
        · rw [hmag, Nat.pow_add]; exact Nat.mul_le_mul_right _ hlo
        · rw [hmag, show Nat.log2 m + j + 1 = (Nat.log2 m + 1) + j by omega, Nat.pow_add]
          exact Nat.mul_lt_mul_of_pos_right hhi (hpos j)
      have hmax : max (ratExp (fMag x * 2 ^ j) (2 ^ (149 + j))) (-126) = -126 := by rw [hexp]; omega
      rw [hmax]
      have hs : ratScale (fMag x * 2 ^ j) (2 ^ (149 + j)) (-126 - 23) = (m * 2 ^ (149 + j), 2 ^ (149 + j)) := by
        simp only [ratScale]
        rw [if_neg (by norm_num), hmag]
        congr 1
        rw [Nat.mul_assoc, ← Nat.pow_add]
        congr 2
        norm_num
        omega
      dsimp only
      rw [hs]
      simp only [divNearest_exact m _ (hpos (149 + j))]
      rw [show ((-126 : Int) + 126).toNat * 2 ^ 23 + m = m by norm_num, if_neg (by omega)]
      omega
  · have hmag : fMag x = (2 ^ 23 + m) * 2 ^ (e - 1) := by unfold fMag; simp only [hE, hM, he, if_false]
    rw [if_neg (by rw [hmag]; have := hpos j; have := hpos (e - 1); positivity)]
    have hexp : ratExp (fMag x * 2 ^ j) (2 ^ (149 + j)) = ((22 + e + j : Nat) : Int) - (149 + j : Nat) := by
      apply ratExp_pow
      · rw [hmag, show 22 + e + j = 23 + (e - 1) + j by omega, Nat.pow_add, Nat.pow_add]
        exact Nat.mul_le_mul_right _ (Nat.mul_le_mul_right _ (by omega))
      · rw [hmag, show 22 + e + j + 1 = 24 + (e - 1) + j by omega, Nat.pow_add, Nat.pow_add]
        exact Nat.mul_lt_mul_of_pos_right (Nat.mul_lt_mul_of_pos_right (by omega) (hpos _)) (hpos j)
    have hmax : max (ratExp (fMag x * 2 ^ j) (2 ^ (149 + j))) (-126) = (e : Int) - 127 := by rw [hexp]; omega
    rw [hmax]
    have hq : ∀ s : Nat × Nat, s = ratScale (fMag x * 2 ^ j) (2 ^ (149 + j)) ((e : Int) - 127 - 23) →
        divNearest s.1 s.2 = 2 ^ 23 + m := by
      intro s hs
      subst hs
      unfold ratScale
      split
      · next h =>
        have : fMag x * 2 ^ j = (2 ^ 23 + m) * (2 ^ (149 + j) * 2 ^ ((e : Int) - 127 - 23).toNat) := by
          rw [hmag, Nat.mul_assoc, ← Nat.pow_add, ← Nat.pow_add]; congr 2; omega
        simp only [this]
        exact divNearest_exact _ _ (by have := hpos (149 + j); have := hpos ((e : Int) - 127 - 23).toNat; positivity)
      · next h =>
        have : fMag x * 2 ^ j * 2 ^ (-((e : Int) - 127 - 23)).toNat = (2 ^ 23 + m) * 2 ^ (149 + j) := by
          rw [hmag, Nat.mul_assoc, Nat.mul_assoc, ← Nat.pow_add, ← Nat.pow_add]; congr 2; omega
        simp only [this]
        exact divNearest_exact _ _ (hpos _)
    simp only [hq _ rfl]
    have : ((e : Int) - 127 + 126).toNat = e - 1 := by omega
    rw [this, if_neg (by omega)]
    omega

/-- Rounding a representable value gives it back (D2). -/
theorem fRound_exact (neg : Bool) (x : Word) (j : Nat) (hx : fIsFinite x = true) :
    fRound neg (fMag x * 2 ^ j) (2 ^ (149 + j)) = fPack neg (fAbsNat x) := by
  rw [fRound, ratPattern_exact x j _ hx]

theorem fIsFinite_not_nan {x : Word} (h : fIsFinite x = true) : fIsNaN x = false := by
  simp [fIsFinite, fIsNaN] at *; omega

theorem fIsFinite_not_inf {x : Word} (h : fIsFinite x = true) : fIsInf x = false := by
  simp [fIsFinite, fIsInf] at *; omega

theorem fMag_one : fMag fOne = 2 ^ 149 := by decide +kernel

/-- Multiplying by one is exact (R13, D2). -/
theorem fMul_one {x : Word} (h : fIsFinite x = true) : fMul x fOne = x := by
  have h1 : fIsFinite fOne = true := by decide +kernel
  have hs : fSign fOne = false := by decide +kernel
  unfold fMul
  simp only [fIsFinite_not_nan h, fIsFinite_not_inf h, fIsFinite_not_nan h1, fIsFinite_not_inf h1, hs, fMag_one, Bool.or_self,
    Bool.bne_false, if_false, Bool.false_eq_true]
  rw [show (2 : Nat) ^ 298 = 2 ^ (149 + 149) by norm_num, fRound_exact _ x 149 h, fPack_self]

theorem fFix_zero_iff {x : Word} : fFix x = 0 ↔ fAbsNat x = 0 := by
  have hp : ∀ k, 0 < 2 ^ k := Nat.two_pow_pos
  have key : fMag x = 0 ↔ fAbsNat x = 0 := by
    unfold fMag
    dsimp only
    split
    · next he => constructor <;> intro hh <;> omega
    · next he =>
      constructor
      · intro hh
        have := hp (fAbsNat x / 2 ^ 23 - 1)
        rcases Nat.mul_eq_zero.mp hh with hh | hh <;> omega
      · intro hh; exact absurd (by simp [hh]) he
  unfold fFix
  split <;> simp [key]

/-- Adding +0 is exact, but for -0 (D2). -/
theorem fAdd_posZero {x : Word} (h : fIsFinite x = true) (hz : fAbsNat x ≠ 0 ∨ fSign x = false) : fAdd x 0 = x := by
  have h1 : fIsFinite (0 : Word) = true := by decide +kernel
  have hf0 : fFix (0 : Word) = 0 := by decide +kernel
  have hs0 : fSign (0 : Word) = false := by decide +kernel
  unfold fAdd
  simp only [fIsFinite_not_nan h, fIsFinite_not_inf h, fIsFinite_not_nan h1, fIsFinite_not_inf h1, hf0, hs0, Bool.or_self,
    Bool.and_false, if_false, Bool.false_eq_true, add_zero]
  split
  · next h0 =>
    have ha := fFix_zero_iff.mp h0
    have hs : fSign x = false := by tauto
    rw [← fPack_self x, ha, hs]
    rfl
  · next h0 =>
    unfold fRoundInt
    have hn : (fFix x).natAbs = fMag x := by unfold fFix; split <;> simp
    have hsgn : decide (fFix x < 0) = fSign x := by
      have hm : fMag x ≠ 0 := fun hm => h0 (by unfold fFix; split <;> simp [hm])
      unfold fFix
      cases hs : fSign x
      · simp
      · simp; omega
    rw [hn, hsgn]
    simpa [fPack_self] using fRound_exact (fSign x) x 0 h

end Sys2Proof.Machine
end

