-- ==== Sys2Proof/Laws/Memory.lean ====
section
/-! SUPPORT. The laws of physical memory: what a read returns after a write, that a read changes no byte, and that every operation keeps
the canonical form and lists no address out of range. -/

namespace Sys2Proof.Machine
open Sys2Proof

/-- Memory canonical and within its size, as a property of the bus. -/
def busOk (size : Nat) (b : Bus) : Bool := Memory.wf b.mem && bankBelow size b.mem

/-- What a read does to the bus: memory stays, the log grows (R85, R620). -/
def ReadsOnly (b b' : Bus) : Prop := b'.mem = b.mem ∧ ∃ l, b'.diag = b.diag ++ l

/-- What any pipeline operation does to the bus: it keeps memory canonical and within its size, and the log grows (R620). -/
def Works (size : Nat) (b b' : Bus) : Prop := (busOk size b = true → busOk size b'= true) ∧ ∃ l, b'.diag = b.diag ++ l

theorem ReadsOnly.refl (b : Bus) : ReadsOnly b b := ⟨rfl, [], by simp⟩

theorem ReadsOnly.trans {a b c : Bus} (h : ReadsOnly a b) (h' : ReadsOnly b c) : ReadsOnly a c := by
  obtain ⟨hm, l, hl⟩ := h
  obtain ⟨hm', l', hl'⟩ := h'
  exact ⟨hm'.trans hm, l ++ l', by simp [hl, hl']⟩

theorem ReadsOnly.works {size : Nat} {b b' : Bus} (h : ReadsOnly b b') : Works size b b' :=
  ⟨fun hb => by simpa [busOk, h.1] using hb, h.2⟩

theorem Works.refl (size : Nat) (b : Bus) : Works size b b := (ReadsOnly.refl b).works

theorem Works.trans {size : Nat} {a b c : Bus} (h : Works size a b) (h' : Works size b c) : Works size a c := by
  obtain ⟨hk, l, hl⟩ := h
  obtain ⟨hk', l', hl'⟩ := h'
  exact ⟨fun ha => hk' (hk ha), l ++ l', by simp [hl, hl']⟩

/-! ### Diagnostics -/

@[simp] theorem raise_mem (q : Who) (k : DiagKind) (b : Bus) : (raise q k b).mem = b.mem := rfl

@[simp] theorem raise_diag (q : Who) (k : DiagKind) (b : Bus) : (raise q k b).diag = b.diag ++ [⟨k, q.ch, q.get⟩] := rfl

theorem raise_readsOnly (q : Who) (k : DiagKind) (b : Bus) : ReadsOnly b (raise q k b) := ⟨rfl, _, rfl⟩

/-! ### Reads -/

theorem readByte_in {q : Who} {a : Word} (b : Bus) (h : a.toNat < q.size) : readByte q a b = (memByte b.mem a, b) := if_pos h

theorem readByte_out {q : Who} {a : Word} (b : Bus) (h : q.size ≤ a.toNat) : readByte q a b = (0, raise q .oorRead b) :=
  if_neg (by omega)

theorem readByte_readsOnly (q : Who) (a : Word) (b : Bus) : ReadsOnly b (readByte q a b).2 := by
  unfold readByte
  split
  · exact .refl b
  · exact raise_readsOnly ..

theorem memRead_readsOnly (q : Who) (n : Nat) (a : Word) (b : Bus) : ReadsOnly b (memRead q n a b).2 := by
  induction n generalizing a b with
  | zero => exact .refl b
  | succ n ih => exact (readByte_readsOnly q a b).trans (ih (a + 1) _)

@[simp] theorem memRead_mem (q : Who) (n : Nat) (a : Word) (b : Bus) : (memRead q n a b).2.mem = b.mem :=
  (memRead_readsOnly q n a b).1

theorem memReadWord_readsOnly (q : Who) (n : Nat) (a : Word) (b : Bus) : ReadsOnly b (memReadWord q n a b).2 :=
  memRead_readsOnly q n a b

@[simp] theorem memReadWord_mem (q : Who) (n : Nat) (a : Word) (b : Bus) : (memReadWord q n a b).2.mem = b.mem :=
  (memReadWord_readsOnly q n a b).1

theorem memRead_lt (q : Who) (n : Nat) (a : Word) (b : Bus) : (memRead q n a b).1 < 256 ^ n := by
  induction n generalizing a b with
  | zero => simp [memRead]
  | succ n ih =>
    have h := ih (a + 1) (readByte q a b).2
    have hb := (readByte q a b).1.isLt
    simp only [memRead, Nat.pow_succ]
    omega

/-! ### Writes -/

theorem writeByte_in {q : Who} {a : Word} (v : Byte) (b : Bus) (h : a.toNat < q.size) :
    writeByte q a v b = { b with mem := bankSet unlistedByte b.mem a.toNat v } := if_pos h

theorem writeByte_out {q : Who} {a : Word} (v : Byte) (b : Bus) (h : q.size ≤ a.toNat) :
    writeByte q a v b = raise q .oorWrite b := if_neg (by omega)

/-- A byte after a write of one byte (R84). -/
theorem memByte_writeByte (q : Who) (a c : Word) (v : Byte) (b : Bus) :
    memByte (writeByte q a v b).mem c = if c = a ∧ a.toNat < q.size then v else memByte b.mem c := by
  by_cases h : a.toNat < q.size
  · by_cases hc : c = a
    · simp [writeByte_in v b h, memByte, hc, h]
    · have : c.toNat ≠ a.toNat := fun e => hc (BitVec.eq_of_toNat_eq e)
      simp [writeByte_in v b h, memByte, hc, bankGet_set_other _ _ this]
  · rw [writeByte_out v b (by omega), if_neg (by tauto)]; rfl

theorem writeByte_works (q : Who) (a : Word) (v : Byte) (b : Bus) : Works q.size b (writeByte q a v b) := by
  by_cases h : a.toNat < q.size
  · rw [writeByte_in v b h]
    refine ⟨fun hb => ?_, [], by simp⟩
    simp [busOk, Memory.wf] at hb ⊢
    exact ⟨bankWf_set _ _ hb.1, bankBelow_set h hb.2⟩
  · rw [writeByte_out v b (by omega)]
    exact (raise_readsOnly ..).works

theorem memWrite_works (q : Who) (n : Nat) (a : Word) (v : Nat) (b : Bus) : Works q.size b (memWrite q n a v b) := by
  induction n generalizing a v b with
  | zero => exact .refl _ b
  | succ n ih => exact (writeByte_works q a _ b).trans (ih (a + 1) _ _)

/-- A byte outside the `n` bytes written reads as before (R13). -/
theorem memByte_memWrite_other (q : Who) (n : Nat) (a c : Word) (v : Nat) (b : Bus)
    (h : ∀ k, k < n → c ≠ a + BitVec.ofNat 32 k) : memByte (memWrite q n a v b).mem c = memByte b.mem c := by
  induction n generalizing a v b with
  | zero => rfl
  | succ n ih =>
    have h0 : c ≠ a := by simpa using h 0 (by omega)
    have hn : ∀ k, k < n → c ≠ a + 1 + BitVec.ofNat 32 k := by
      intro k hk
      have := h (k + 1) (by omega)
      rwa [show a + BitVec.ofNat 32 (k + 1) = a + 1 + BitVec.ofNat 32 k by
        rw [BitVec.add_assoc, show (1 : Word) + BitVec.ofNat 32 k = BitVec.ofNat 32 (k + 1) by
          apply BitVec.eq_of_toNat_eq; simp [Nat.add_comm]]] at this
    rw [memWrite, ih _ _ _ hn, memByte_writeByte, if_neg (by simp [h0])]

/-! ### Writes of the host -/

theorem hostWriteBytes_keeps {size : Nat} (a : Word) (l : List Byte) {m : Memory} (hw : Memory.wf m = true)
    (hb : bankBelow size m = true) :
    Memory.wf (hostWriteBytes size a l m) = true ∧ bankBelow size (hostWriteBytes size a l m) = true := by
  induction l generalizing a m with
  | nil => exact ⟨hw, hb⟩
  | cons v rest ih =>
    by_cases h : a.toNat < size
    · simp only [hostWriteBytes, if_pos h]
      exact ih (a + 1) (bankWf_set _ _ hw) (bankBelow_set h hb)
    · simp only [hostWriteBytes, if_neg h]
      exact ih (a + 1) hw hb

/-! ### Vertex fetch -/

/-- A reader that changes the bus as a read does. -/
def GoodReader (rd : Reader) : Prop := ∀ a n b, ReadsOnly b (rd a n b).2

theorem memReader_good (q : Who) : GoodReader (memReader q) := fun a n b => memRead_readsOnly q n a b

theorem ibufReader_good (va : VertexArrays) : GoodReader (ibufReader va) := fun _ _ b => .refl b

theorem component_readsOnly {rd : Reader} (h : GoodReader rd) (p : Bool) (dv : Word) (conv : Nat → Word) (a : Word) (n : Nat)
    (b : Bus) : ReadsOnly b (component p dv rd conv a n b).2 := by
  unfold component
  split
  · exact h ..
  · exact .refl b

theorem fetchAttr_readsOnly (q : Who) {rd : Reader} (h : GoodReader rd) (slot : VaSlot) (a : Word) (b : Bus) :
    ReadsOnly b (fetchAttr q rd slot a b).2 := by
  have hc : ∀ conv w, ReadsOnly b (components rd conv w slot.size a b).2 := fun conv w =>
    (((component_readsOnly h ..).trans (component_readsOnly h ..)).trans (component_readsOnly h ..)).trans
      (component_readsOnly h ..)
  unfold fetchAttr
  split
  · exact hc ..
  · split
    · exact (((h ..).trans (h ..)).trans (h ..)).trans (h ..)
    · split
      · exact hc ..
      · split
        · exact hc ..
        · split
          · exact hc ..
          · split
            · exact h ..
            · exact raise_readsOnly ..

theorem fetchSlot_readsOnly (q : Who) {rd : Reader} (h : GoodReader rd) (va : VertexArrays) (addr : Nat → Word) (i : Nat)
    (r : Bank Vec4 × Bus) : ReadsOnly r.2 (fetchSlot q rd va addr i r).2 := by
  unfold fetchSlot
  split
  · exact .refl _
  · exact fetchAttr_readsOnly q h ..

/-- A relation that one turn of a loop respects, the loop respects. -/
theorem loopFrom_rel {α : Type} {rel : α → α → Prop} (hr : ∀ a, rel a a) (ht : ∀ {a b c}, rel a b → rel b c → rel a c)
    {f : Nat → α → α} (hf : ∀ i a, rel a (f i a)) (n start : Nat) (a : α) : rel a (loopFrom f n start a) := by
  induction n generalizing start a with
  | zero => exact hr a
  | succ n ih => exact ht (hf start a) (ih (start + 1) _)

/-- A relation that every turn of a loop respects, a loop that comes to its end respects. -/
theorem loopM_rel {α : Type} {rel : α → α → Prop} (hr : ∀ a, rel a a) (ht : ∀ {a b c}, rel a b → rel b c → rel a c)
    {f : Nat → α → Except Refusal α} (hf : ∀ i a b, f i a = .ok b → rel a b) (n start : Nat) {a b : α}
    (h : loopM f n start a = .ok b) : rel a b := by
  induction n generalizing start a with
  | zero => cases h; exact hr _
  | succ n ih =>
    rw [loopM] at h
    split at h
    · next c hc => exact ht (hf start a c hc) (ih (start + 1) h)
    · cases h

/-- A vertex fetch reads memory and raises diagnostics, no more (R434, R254). -/
theorem fetchSlots_readsOnly (q : Who) {rd : Reader} (h : GoodReader rd) (va : VertexArrays) (addr : Nat → Word)
    (pvtx : Bank Vec4) (b : Bus) : ReadsOnly b (fetchSlots q rd va addr pvtx b).2 :=
  loopFrom_rel (rel := fun x y : Bank Vec4 × Bus => ReadsOnly x.2 y.2) (fun _ => .refl _) (fun h h' => h.trans h')
    (fun i r => fetchSlot_readsOnly q h va addr i r) 16 0 (pvtx, b)

theorem fetchVertex_readsOnly (q : Who) (va : VertexArrays) (pvtx : Bank Vec4) (n : Word) (b : Bus) :
    ReadsOnly b (fetchVertex q va pvtx n b).2 := fetchSlots_readsOnly q (memReader_good q) ..

theorem inlineVertex_readsOnly (q : Who) (va : VertexArrays) (pvtx : Bank Vec4) (b : Bus) :
    ReadsOnly b (inlineVertex q va pvtx b).2 := fetchSlots_readsOnly q (ibufReader_good va) ..

/-- The slots that are not enabled keep the persistent attribute (R254), and the fetched vertex keeps a canonical bank. -/
theorem fetchSlots_bank {q : Who} {rd : Reader} {va : VertexArrays} {addr : Nat → Word} {pvtx : Bank Vec4} {b : Bus}
    (hw : bankWf Vec4.zero pvtx = true) (hb : bankBelow 16 pvtx = true) :
    bankWf Vec4.zero (fetchSlots q rd va addr pvtx b).1 = true ∧ bankBelow 16 (fetchSlots q rd va addr pvtx b).1 = true := by
  have key : ∀ n start (r : Bank Vec4 × Bus), start + n ≤ 16 → bankWf Vec4.zero r.1 = true → bankBelow 16 r.1 = true →
      bankWf Vec4.zero (loopFrom (fetchSlot q rd va addr) n start r).1 = true ∧
        bankBelow 16 (loopFrom (fetchSlot q rd va addr) n start r).1 = true := by
    intro n
    induction n with
    | zero => intro start r _ h1 h2; exact ⟨h1, h2⟩
    | succ n ih =>
      intro start r hs h1 h2
      refine ih (start + 1) _ (by omega) ?_ ?_
      · unfold fetchSlot; split
        · exact h1
        · exact bankWf_set _ _ h1
      · unfold fetchSlot; split
        · exact h2
        · exact bankBelow_set (by omega) h2
  exact key 16 0 (pvtx, b) (by omega) hw hb

end Sys2Proof.Machine
end

