-- ==== Sys2Proof/Laws/Mmio.lean ====
section
/-! SUPPORT. The MMIO map: which offset is which register (R87, R610), from either side. -/

namespace Sys2Proof.Machine
open Sys2Proof

/-- A register of a channel's window lies in that channel's window, at its own place (R87). -/
theorem windowOffset_fields (ch : BitVec 5) (r : BitVec 16) :
    inChannelWindow (windowOffset ch r) = true ∧ windowChannel (windowOffset ch r) = ch ∧ lo16 (windowOffset ch r) = r := by
  have h1 := ch.isLt
  have h2 := r.isLt
  refine ⟨?_, ?_, ?_⟩
  · unfold inChannelWindow windowOffset
    rw [decide_eq_true_eq]
    apply BitVec.eq_of_toNat_eq
    simp [BitVec.extractLsb'_toNat, Nat.shiftRight_eq_div_pow]
    omega
  all_goals
    apply BitVec.eq_of_toNat_eq
    simp [windowChannel, lo16, windowOffset, BitVec.extractLsb'_toNat, Nat.shiftRight_eq_div_pow]
    omega

/-- An offset of the channel window is the register its low half names in the window of its channel (R87). -/
theorem eq_windowOffset {off : Word} (h : inChannelWindow off = true) : off = windowOffset (windowChannel off) (lo16 off) := by
  have h3 := off.isLt
  unfold inChannelWindow at h
  rw [decide_eq_true_eq] at h
  have h4 := congrArg BitVec.toNat h
  apply BitVec.eq_of_toNat_eq
  simp [windowChannel, lo16, windowOffset, BitVec.extractLsb'_toNat, Nat.shiftRight_eq_div_pow] at h4 ⊢
  omega

/-- The offset is the register's by the map (R610). -/
def registerAt (m : MmioMap) (off : Word) : MmioReg → Prop
  | .pmcIntr => off = m.pmcIntr
  | .pmcEnable => off = m.pmcEnable
  | .pgraphIntr => off = m.pgraphIntr
  | .notifySrc => off = m.notifySrc
  | .notifyData => off = m.notifyData
  | .pgraphEnable => off = m.pgraphEnable
  | .pcrtcIntr => off = m.pcrtcIntr
  | .pcrtcEnable => off = m.pcrtcEnable
  | .pcrtcStart => off = m.pcrtcStart
  | .dmaPut ch => off = windowOffset ch m.dmaPut
  | .dmaGet ch => off = windowOffset ch m.dmaGet
  | .plain => ¬ namedOffset m off

theorem eq_windowOffset_of {off : Word} {r : BitVec 16} (h : (inChannelWindow off && decide (lo16 off = r)) = true) :
    off = windowOffset (windowChannel off) r := by
  rw [Bool.and_eq_true, decide_eq_true_eq] at h
  exact (eq_windowOffset h.1).trans (by rw [h.2])

/-- A register is found at its own offset, and plain storage at none of the map's, whatever the map (R610). -/
theorem mmioReg_registerAt (m : MmioMap) (off : Word) : registerAt m off (mmioReg m off) := by
  unfold mmioReg
  by_cases h1 : off = m.pmcIntr
  · rw [if_pos h1]; exact h1
  rw [if_neg h1]
  by_cases h2 : off = m.pmcEnable
  · rw [if_pos h2]; exact h2
  rw [if_neg h2]
  by_cases h3 : off = m.pgraphIntr
  · rw [if_pos h3]; exact h3
  rw [if_neg h3]
  by_cases h4 : off = m.notifySrc
  · rw [if_pos h4]; exact h4
  rw [if_neg h4]
  by_cases h5 : off = m.notifyData
  · rw [if_pos h5]; exact h5
  rw [if_neg h5]
  by_cases h6 : off = m.pgraphEnable
  · rw [if_pos h6]; exact h6
  rw [if_neg h6]
  by_cases h7 : off = m.pcrtcIntr
  · rw [if_pos h7]; exact h7
  rw [if_neg h7]
  by_cases h8 : off = m.pcrtcEnable
  · rw [if_pos h8]; exact h8
  rw [if_neg h8]
  by_cases h9 : off = m.pcrtcStart
  · rw [if_pos h9]; exact h9
  rw [if_neg h9]
  by_cases hp : (inChannelWindow off && decide (lo16 off = m.dmaPut)) = true
  · rw [if_pos hp]; exact eq_windowOffset_of hp
  rw [if_neg hp]
  by_cases hg : (inChannelWindow off && decide (lo16 off = m.dmaGet)) = true
  · rw [if_pos hg]; exact eq_windowOffset_of hg
  rw [if_neg hg]
  rintro (h | ⟨ch, h | h⟩)
  · simp only [mapOffsets, List.mem_cons, List.not_mem_nil, or_false] at h
    tauto
  · subst h; simp [windowOffset_fields] at hp
  · subst h; simp [windowOffset_fields] at hg

/-- In a map that gives every register a word of its own, each offset names its register (R610). -/
theorem mmioReg_of_mapOk {m : MmioMap} (h : mapOk m = true) :
    mmioReg m m.pmcIntr = .pmcIntr ∧ mmioReg m m.pmcEnable = .pmcEnable ∧ mmioReg m m.pgraphIntr = .pgraphIntr ∧
    mmioReg m m.notifySrc = .notifySrc ∧ mmioReg m m.notifyData = .notifyData ∧ mmioReg m m.pgraphEnable = .pgraphEnable ∧
    mmioReg m m.pcrtcIntr = .pcrtcIntr ∧ mmioReg m m.pcrtcEnable = .pcrtcEnable ∧ mmioReg m m.pcrtcStart = .pcrtcStart := by
  have hn : (mapOffsets m).reverse.Nodup := by
    simp only [mapOk, Bool.and_eq_true, decide_eq_true_eq] at h
    exact List.nodup_reverse.mpr h.1.1.1.1
  simp only [mapOffsets, List.reverse_cons, List.reverse_nil, List.nil_append, List.cons_append, List.nodup_cons, List.mem_cons,
    List.not_mem_nil, or_false, not_or] at hn
  simp [mmioReg, hn]

/-- The same of the two registers of a channel's window (R87, R610). -/
theorem mmioReg_window {m : MmioMap} (h : mapOk m = true) (ch : BitVec 5) :
    mmioReg m (windowOffset ch m.dmaPut) = .dmaPut ch ∧ mmioReg m (windowOffset ch m.dmaGet) = .dmaGet ch := by
  have hw : ∀ off ∈ mapOffsets m, ∀ r, r = m.dmaPut ∨ r = m.dmaGet → windowOffset ch r ≠ off := by
    rintro off ho r hr rfl
    simp only [mapOk, Bool.and_eq_true, decide_eq_true_eq, List.all_eq_true] at h
    have := (h.1.1.1.2 _ ho).2
    rcases hr with rfl | rfl <;> simp [windowOffset_fields] at this
  have hd : m.dmaPut ≠ m.dmaGet := by
    simp only [mapOk, Bool.and_eq_true, decide_eq_true_eq] at h
    exact h.1.1.2
  have hf := fun r => windowOffset_fields ch r
  constructor <;> unfold mmioReg
  · have hq := fun off ho => hw off ho m.dmaPut (.inl rfl)
    simp only [mapOffsets, List.forall_mem_cons] at hq
    simp [hq, hf]
  · have hq := fun off ho => hw off ho m.dmaGet (.inr rfl)
    simp only [mapOffsets, List.forall_mem_cons] at hq
    simp [hq, hf, hd.symm]

end Sys2Proof.Machine
end

