-- ==== Sys2Proof/Laws/Pipeline.lean ====
section
/-! SUPPORT. What each unit of the pipeline can do to the bus: the sampler, the combiners and the vertex-program unit read; a pixel
writes the bytes of its own colour and zeta pixel; a triangle writes inside the render target. -/

namespace Sys2Proof.Machine
open Sys2Proof

/-! ### Results that may be refusals -/

theorem except_bind_ok {α β : Type} {x : Except Refusal α} {f : α → Except Refusal β} {b : β} (h : x.bind f = .ok b) :
    ∃ a, x = .ok a ∧ f a = .ok b := by
  cases x with
  | ok a => exact ⟨a, rfl, h⟩
  | error e => cases h

theorem except_map_ok {α β : Type} {x : Except Refusal α} {f : α → β} {b : β} (h : x.map f = .ok b) : ∃ a, x = .ok a ∧ f a = b := by
  cases x with
  | ok a => exact ⟨a, rfl, by simpa [Except.map] using h⟩
  | error e => cases h

theorem ofExcept_next {r : Except Refusal State} {t : State} (h : Run.ofExcept r = .next t) : r = .ok t := by
  cases r with
  | ok s => simpa [Run.ofExcept] using h
  | error e => simp [Run.ofExcept] at h

/-! ### Sampler and combiners -/

theorem readColorPart_readsOnly (q : Who) (a : Word) (i : Nat) (b : Bus) : ReadsOnly b (readColorPart q a i b).2 :=
  ((memRead_readsOnly ..).trans (memRead_readsOnly ..)).trans (memRead_readsOnly ..)

theorem sampleDxt1_readsOnly (q : Who) (a : Word) (i : Nat) (b : Bus) : ReadsOnly b (sampleDxt1 q a i b).2 :=
  readColorPart_readsOnly q a i b

theorem sampleDxt3_readsOnly (q : Who) (m : DxtColorMode) (a : Word) (i : Nat) (b : Bus) : ReadsOnly b (sampleDxt3 q m a i b).2 := by
  simp only [sampleDxt3]
  exact (memRead_readsOnly q 8 a b).trans (readColorPart_readsOnly ..)

theorem sampleDxt5_readsOnly (q : Who) (m : DxtColorMode) (a : Word) (i : Nat) (b : Bus) : ReadsOnly b (sampleDxt5 q m a i b).2 := by
  simp only [sampleDxt5]
  refine (memRead_readsOnly q 1 a b).trans ((memRead_readsOnly q 1 (a + 1) _).trans ?_)
  exact (memRead_readsOnly q 6 (a + 2) _).trans (readColorPart_readsOnly ..)

theorem sampleAt_readsOnly (q : Who) (m : DxtColorMode) (t : TexUnit) (x y : Nat) (b : Bus) : ReadsOnly b (sampleAt q m t x y b).2 := by
  simp only [sampleAt]
  split
  · exact sampleDxt1_readsOnly ..
  · split
    · exact sampleDxt3_readsOnly ..
    · split
      · exact sampleDxt5_readsOnly ..
      · exact memReadWord_readsOnly ..

/-- The sampler reads memory and raises diagnostics, no more (R434). -/
theorem sample_readsOnly (q : Who) (m : DxtColorMode) (t : TexUnit) (c : Int × Int) (b : Bus) : ReadsOnly b (sample q m t c b).2 := by
  unfold sample
  split
  · exact raise_readsOnly ..
  · split
    · exact raise_readsOnly ..
    · exact sampleAt_readsOnly ..

theorem texel_readsOnly (q : Who) (m : DxtColorMode) (tex : Bank TexUnit) (t : Nat) (u v : Word) (b : Bus) :
    ReadsOnly b (texel q m tex t u v b).2 := by
  unfold texel
  split
  · exact sample_readsOnly ..
  · exact .refl b

theorem cmbWrite_readsOnly (q : Who) (code : BitVec 4) (upd : Vec4 → Vec4) (r : CmbRegs × Bus) :
    ReadsOnly r.2 (cmbWrite q code upd r).2 := by
  unfold cmbWrite
  dsimp only
  split <;> first | exact .refl _ | exact raise_readsOnly ..

theorem cmbWrites_readsOnly {α : Type} (q : Who) (ocw : Word) (upd : α → Vec4 → Vec4) (o : CmbOut α) (r : CmbRegs × Bus) :
    ReadsOnly r.2 (cmbWrites q ocw upd o r).2 :=
  ((cmbWrite_readsOnly ..).trans (cmbWrite_readsOnly ..)).trans (cmbWrite_readsOnly ..)

theorem generalStage_readsOnly (q : Who) (st : CmbStage) (r r' : CmbRegs × Bus) (h : generalStage q st r = .ok r') :
    ReadsOnly r.2 r'.2 := by
  obtain ⟨rgb, _, h⟩ := except_bind_ok h
  obtain ⟨al, _, h⟩ := except_bind_ok h
  cases h
  exact (cmbWrites_readsOnly q st.cocw _ rgb ({ r.1 with color0 := from8v st.fac0, color1 := from8v st.fac1 }, r.2)).trans
    (cmbWrites_readsOnly ..)

/-- The combiner engine raises diagnostics, no more (R487). -/
theorem combine_readsOnly (q : Who) (c : Combiner) (p : Vec4) (t0 t1 t2 t3 : Word) (b : Bus) {r : Word × Bus}
    (h : combine q c p t0 t1 t2 t3 b = .ok r) : ReadsOnly b r.2 := by
  obtain ⟨x, hx, h⟩ := except_bind_ok h
  obtain ⟨out, _, h⟩ := except_bind_ok h
  cases h
  exact loopM_rel (rel := fun x y : CmbRegs × Bus => ReadsOnly x.2 y.2) (fun _ => .refl _) (fun h h' => h.trans h')
    (fun i a b h => generalStage_readsOnly q _ a b h) _ _ hx

theorem shade_readsOnly (d : Draw) (sel : Shader) (p : Par13) (b : Bus) {r : Word × Bus} (h : shade d sel p b = .ok r) :
    ReadsOnly b r.2 := by
  cases sel with
  | flat => cases h; exact .refl b
  | tex0 => cases h; exact sample_readsOnly ..
  | combiner =>
    exact ((((texel_readsOnly ..).trans (texel_readsOnly ..)).trans (texel_readsOnly ..)).trans (texel_readsOnly ..)).trans
      (combine_readsOnly _ _ _ _ _ _ _ _ h)

/-! ### Pixels -/

/-- What drawing does to the bus: it works, and every byte outside the render target reads as before. -/
def DrawsIn (d : Draw) (b b' : Bus) : Prop := Works d.who.size b b' ∧ memoryKeptOutside d.surf b b'

theorem ReadsOnly.drawsIn {d : Draw} {b b' : Bus} (h : ReadsOnly b b') : DrawsIn d b b' :=
  ⟨h.works, fun a _ => by rw [memByte, memByte, h.1]⟩

theorem DrawsIn.refl (d : Draw) (b : Bus) : DrawsIn d b b := (ReadsOnly.refl b).drawsIn

theorem DrawsIn.trans {d : Draw} {a b c : Bus} (h : DrawsIn d a b) (h' : DrawsIn d b c) : DrawsIn d a c :=
  ⟨h.1.trans h'.1, fun x hx => (h'.2 x hx).trans (h.2 x hx)⟩

/-- What one pixel does to the bus: it works, and every byte that is not one of the pixel's reads as before. -/
def PixelStep (d : Draw) (x y : Nat) (b b' : Bus) : Prop :=
  Works d.who.size b b' ∧ ∀ a, ¬ pixelByte d.surf x y a → memByte b'.mem a = memByte b.mem a

theorem ReadsOnly.pixelStep {d : Draw} {x y : Nat} {b b' : Bus} (h : ReadsOnly b b') : PixelStep d x y b b' :=
  ⟨h.works, fun a _ => by rw [memByte, memByte, h.1]⟩

theorem PixelStep.trans {d : Draw} {x y : Nat} {a b c : Bus} (h : PixelStep d x y a b) (h' : PixelStep d x y b c) :
    PixelStep d x y a c :=
  ⟨h.1.trans h'.1, fun p hp => (h'.2 p hp).trans (h.2 p hp)⟩

theorem writeZs_step (d : Draw) (x y zv : Nat) (sv : BitVec 8) (b : Bus) : PixelStep d x y b (writeZs d x y zv sv b) :=
  ⟨memWrite_works .., fun _a ha => memByte_memWrite_other _ _ _ _ _ _ fun k hk he => ha (.inr ⟨k, hk, he⟩)⟩

theorem readZs_readsOnly (d : Draw) (x y : Nat) (b : Bus) : ReadsOnly b (readZs d x y b).2 := by
  unfold readZs
  split
  · exact memReadWord_readsOnly ..
  · exact .refl b

theorem writeColor_step (d : Draw) (x y : Nat) (src : Word) {b b' : Bus} (h : writeColor d x y src b = .ok b') :
    PixelStep d x y b b' := by
  obtain ⟨col, _, h⟩ := except_map_ok h
  subst h
  refine (memReadWord_readsOnly d.who (colorBpp d.surf.colorFmt) (colorAddr d.surf x y) b).pixelStep.trans ?_
  exact ⟨memWrite_works .., fun a ha => memByte_memWrite_other _ _ _ _ _ _ fun k hk he => ha (.inl ⟨k, hk, he⟩)⟩

theorem pixelPass_step (d : Draw) (x y zi zd : Nat) (sd : BitVec 8) (src : Word) {b b' : Bus}
    (h : pixelPass d x y zi zd sd src b = .ok b') : PixelStep d x y b b' := by
  obtain ⟨st, _, h⟩ := except_bind_ok h
  obtain ⟨b1, hb1, h⟩ := except_map_ok h
  subst h
  refine (writeColor_step d x y src hb1).trans ?_
  split
  · exact writeZs_step ..
  · exact (ReadsOnly.refl _).pixelStep

theorem pixelTests_step (d : Draw) (x y zi zd : Nat) (sd : BitVec 8) (src : Word) {b b' : Bus}
    (h : pixelTests d x y zi zd sd src b = .ok b') : PixelStep d x y b b' := by
  obtain ⟨s1, _, h⟩ := except_bind_ok h
  split at h
  · obtain ⟨s2, _, h⟩ := except_bind_ok h
    split at h
    · exact pixelPass_step d x y zi zd sd src h
    · obtain ⟨st, _, h⟩ := except_map_ok h
      subst h
      exact writeZs_step ..
  · obtain ⟨st, _, h⟩ := except_map_ok h
    subst h
    exact writeZs_step ..

theorem missingZeta_readsOnly (d : Draw) (b : Bus) : ReadsOnly b (missingZeta d b) := by
  unfold missingZeta
  split
  · exact raise_readsOnly ..
  · exact .refl b

/-- A pixel writes the bytes of its own colour and zeta pixel, no others (R550). -/
theorem pixel_step (d : Draw) (x y : Nat) (z src : Word) {b b' : Bus} (h : pixel d x y z src b = .ok b') :
    PixelStep d x y b b' := by
  unfold pixel at h
  split at h
  · cases h; exact (ReadsOnly.refl _).pixelStep
  · split at h
    · cases h; exact (raise_readsOnly ..).pixelStep
    · have hr := (missingZeta_readsOnly d b).trans (readZs_readsOnly d x y _)
      obtain ⟨ok, _, h⟩ := except_bind_ok h
      split at h
      · exact hr.pixelStep.trans (pixelTests_step d x y _ _ _ _ h)
      · cases h; exact hr.pixelStep

/-- A pixel outside the clip rectangle does nothing (R586). -/
theorem pixel_outside (d : Draw) (x y : Nat) (z src : Word) (b : Bus) (h : inClip d.surf x y = false) :
    pixel d x y z src b = .ok b := by simp [pixel, h]

theorem pixel_drawsIn (d : Draw) (x y : Nat) (z src : Word) {b b' : Bus} (h : pixel d x y z src b = .ok b') :
    DrawsIn d b b' := by
  cases hc : inClip d.surf x y with
  | false =>
    rw [pixel_outside d x y z src b hc] at h
    cases h; exact .refl d b
  | true =>
    have hs := pixel_step d x y z src h
    exact ⟨hs.1, fun a ha => hs.2 a fun hp => ha ⟨x, y, hc, hp⟩⟩

/-! ### Triangles -/

theorem rasterPixel_drawsIn (d : Draw) (sel : Shader) (a b c : TVertex) (x y : Nat) (u v : Bus)
    (h : rasterPixel d sel a b c x y u = .ok v) : DrawsIn d u v := by
  unfold rasterPixel at h
  split at h
  · obtain ⟨r, hr, h⟩ := except_bind_ok h
    exact (shade_readsOnly d sel _ _ hr).drawsIn.trans (pixel_drawsIn d x y _ _ h)
  · cases h; exact .refl d _

/-- A triangle writes inside the render target (R391, R392). -/
theorem raster_drawsIn (d : Draw) (sel : Shader) (a b c : TVertex) (u v : Bus) (h : raster d sel a b c u = .ok v) :
    DrawsIn d u v := by
  unfold raster at h
  split at h
  · exact loopM_rel (rel := DrawsIn d) (.refl d) (fun h h' => h.trans h')
      (fun y u v h => loopM_rel (rel := DrawsIn d) (.refl d) (fun h h' => h.trans h')
        (fun x u v h => rasterPixel_drawsIn d sel a b c x y u v h) _ _ h) _ _ h
  · cases h; exact (raise_readsOnly ..).drawsIn

theorem fanFrom_drawsIn (d : Draw) (sel : Shader) (f : TVertex) (l : List TVertex) (u v : Bus)
    (h : fanFrom d sel f l u = .ok v) : DrawsIn d u v := by
  induction l generalizing u with
  | nil => cases h; exact .refl d _
  | cons p rest ih =>
    cases rest with
    | nil => cases h; exact .refl d _
    | cons q rest =>
      obtain ⟨w, hw, h⟩ := except_bind_ok h
      exact (raster_drawsIn d sel f p q u w hw).trans (ih w h)

theorem triangle_drawsIn (d : Draw) (sel : Shader) (a b c : TVertex) (u v : Bus) (h : triangle d sel a b c u = .ok v) :
    DrawsIn d u v := by
  unfold triangle at h
  split at h
  · exact raster_drawsIn d sel a b c u v h
  · split at h
    · cases h; exact .refl d _
    · unfold drawFan at h
      split at h
      · cases h; exact .refl d _
      · exact fanFrom_drawsIn d sel _ _ u v h

theorem drawTriangles_drawsIn (d : Draw) (sel : Shader) (l : List (TVertex × TVertex × TVertex)) (u v : Bus)
    (h : drawTriangles d sel l u = .ok v) : DrawsIn d u v := by
  induction l generalizing u with
  | nil => cases h; exact .refl d _
  | cons t rest ih =>
    obtain ⟨w, hw, h⟩ := except_bind_ok h
    exact (triangle_drawsIn d sel _ _ _ u w hw).trans (ih w h)

/-- The assembler stores the vertex and draws inside the render target (R370). -/
theorem assemble_result (d : Draw) (p : Prim) (t : TVertex) (u : Bus) {r : Prim × Bus} (h : assemble d p t u = .ok r) :
    r.1 = storeVertex p t ∧ DrawsIn d u r.2 := by
  obtain ⟨b, hb, h⟩ := except_map_ok h
  subst h
  refine ⟨rfl, ?_⟩
  refine DrawsIn.trans ?_ (drawTriangles_drawsIn d _ _ _ _ hb)
  split
  · exact (raise_readsOnly ..).drawsIn
  · exact .refl d _

/-! ### Vertex program -/

/-- What executing vertex-program instructions leaves alone: everything but the temporaries, outputs, constants, `a0x` and `vpip`. -/
def ProgramKept (u w : VProg) : Prop :=
  w = { u with r := w.r, o := w.o, vpc := w.vpc, a0x := w.a0x, ip := w.ip }

theorem ProgramKept.refl (u : VProg) : ProgramKept u u := rfl

theorem ProgramKept.trans {a b c : VProg} (h : ProgramKept a b) (h' : ProgramKept b c) : ProgramKept a c := by
  unfold ProgramKept at *
  rw [h', h]

theorem writeOutput_result (q : Who) (vop sop : BitVec 4) (f : VpFields) (v s : Vec4) (u : VProg) (b : Bus) :
    ProgramKept u (writeOutput q vop sop f v s u b).1 ∧ ReadsOnly b (writeOutput q vop sop f v s u b).2 := by
  unfold writeOutput
  dsimp only
  repeat' split
  all_goals first
    | exact ⟨rfl, .refl b⟩
    | exact ⟨rfl, raise_readsOnly ..⟩

theorem writeBack_result (q : Who) (vop sop : BitVec 4) (f : VpFields) (v s a : Vec4) (u : VProg) (b : Bus) :
    ProgramKept u (writeBack q vop sop f v s a u b).1 ∧ ReadsOnly b (writeBack q vop sop f v s a u b).2 := by
  have h := writeOutput_result q vop sop f v s { u with r := writeTemps vop sop f v s u.r } b
  refine ⟨?_, h.2⟩
  have h1 := h.1
  unfold ProgramKept at h1 ⊢
  simp only [writeBack]
  rw [h1]

/-- One instruction: it writes back, and only raises diagnostics on the bus (R306 to R309). -/
theorem vpExecute_result (m : Numerics) (q : Who) (vop sop : BitVec 4) (f : VpFields) (u : VProg) (b : Bus) {r : VProg × Bus}
    (h : vpExecute m q vop sop f u b = .ok r) : ProgramKept u r.1 ∧ ReadsOnly b r.2 := by
  unfold vpExecute at h
  split at h
  · obtain ⟨a, _, h⟩ := except_bind_ok h
    obtain ⟨bb, _, h⟩ := except_bind_ok h
    obtain ⟨c, _, h⟩ := except_bind_ok h
    cases h
    exact writeBack_result ..
  · cases h

theorem vpLoop_result (par : Params) (q : Who) (n : Nat) (u : VProg) (b : Bus) {r : VProg × Bus} (h : vpLoop par q n u b = .ok r) :
    ProgramKept u r.1 ∧ ReadsOnly b r.2 := by
  induction n generalizing u b with
  | zero => cases h; exact ⟨rfl, .refl b⟩
  | succ n ih =>
    rw [vpLoop] at h
    split at h
    · cases h; exact ⟨rfl, raise_readsOnly ..⟩
    · obtain ⟨w, hw, h⟩ := except_bind_ok h
      have h1 := vpExecute_result _ q _ _ _ u b hw
      split at h
      · cases h; exact h1
      · have h2 := ih _ _ h
        exact ⟨(h1.1.trans (b := w.1) (c := { w.1 with ip := w.1.ip + 1 }) rfl).trans h2.1, h1.2.trans h2.2⟩

/-- What the run of a vertex leaves alone: the instruction memory and every cursor and control field (R306). -/
def RunKept (u w : VProg) : Prop :=
  w = { u with v := w.v, r := w.r, o := w.o, vpc := w.vpc, a0x := w.a0x, ip := w.ip }

theorem vpTransform_result (par : Params) (q : Who) (vtx : Bank Vec4) (u : VProg) (b : Bus) {t : TVertex × VProg × Bus}
    (h : vpTransform par q vtx u b = .ok t) : RunKept u t.2.1 ∧ t.2.1.v = vtx ∧ ReadsOnly b t.2.2 := by
  obtain ⟨r, hr, h⟩ := except_map_ok h
  subst h
  have h1 := vpLoop_result par q _ _ b hr
  have h2 : r.1 = _ := h1.1
  refine ⟨?_, ?_, h1.2⟩
  · unfold RunKept; rw [h2]
  · rw [h2]

/-! ### Emission -/

/-- The transform of a vertex reads (R255). -/
theorem transformVertex_result (s : State) (vtx : Bank Vec4) {t : TVertex × VProg × Bus} (h : transformVertex s vtx = .ok t) :
    RunKept s.vp t.2.1 ∧ ReadsOnly s.bus t.2.2 ∧ (t.2.1.v = vtx ∨ t.2.1.v = s.vp.v) := by
  unfold transformVertex at h
  split at h
  · have h1 := vpTransform_result _ _ _ _ _ h
    exact ⟨h1.1, h1.2.2, .inl h1.2.1⟩
  · cases h; exact ⟨rfl, .refl _, .inr rfl⟩

/-- The state's fields that emitting a vertex may change (R255): the vertex-program unit's working state, the assembler and the bus. -/
theorem emit_frame (vtx : Bank Vec4) (s : State) {t : State} (h : emit vtx s = .ok t) :
    t = { s with vp := t.vp, prim := t.prim, bus := t.bus } := by
  unfold emit at h
  split at h
  · cases h; rfl
  · obtain ⟨r, _, h⟩ := except_bind_ok h
    obtain ⟨a, _, h⟩ := except_map_ok h
    subst h; rfl

/-- Emitting a vertex draws inside the render target (R255). -/
theorem emit_drawsIn (vtx : Bank Vec4) (s : State) {t : State} (h : emit vtx s = .ok t) : DrawsIn (drawOf s) s.bus t.bus := by
  unfold emit at h
  split at h
  · cases h; exact (raise_readsOnly ..).drawsIn
  · obtain ⟨r, hr, h⟩ := except_bind_ok h
    obtain ⟨a, ha, h⟩ := except_map_ok h
    subst h
    exact (transformVertex_result s vtx hr).2.1.drawsIn.trans (assemble_result _ _ _ _ ha).2

/-- Emitting a vertex leaves the program memory and the control fields of the vertex-program unit (R306). -/
theorem emit_program (vtx : Bank Vec4) (s : State) {t : State} (h : emit vtx s = .ok t) : RunKept s.vp t.vp := by
  unfold emit at h
  split at h
  · cases h; rfl
  · obtain ⟨r, hr, h⟩ := except_bind_ok h
    obtain ⟨a, _, h⟩ := except_map_ok h
    subst h
    exact (transformVertex_result s vtx hr).1

/-- The assembler after an emission: unchanged where no primitive is open, else with one vertex more (R255, R370). -/
theorem emit_prim (vtx : Bank Vec4) (s : State) {t : State} (h : emit vtx s = .ok t) :
    t.prim = s.prim ∨ ∃ v, t.prim = storeVertex s.prim v := by
  unfold emit at h
  split at h
  · cases h; exact .inl rfl
  · obtain ⟨r, _, h⟩ := except_bind_ok h
    obtain ⟨a, ha, h⟩ := except_map_ok h
    subst h
    exact .inr ⟨r.1, (assemble_result _ _ _ _ ha).1⟩

/-- The triangles that the assembler draws go to the clipper one after the other (R370). -/
theorem drawTriangles_drawsAll (d : Draw) (sel : Shader) (l : List (TVertex × TVertex × TVertex)) (u v : Bus)
    (h : drawTriangles d sel l u = .ok v) : drawsAll d sel l u v := by
  induction l generalizing u with
  | nil => cases h; rfl
  | cons t rest ih =>
    obtain ⟨m, hm, h⟩ := except_bind_ok h
    exact ⟨m, hm, ih m h⟩

/-- The transform that `emit` takes, by the mode (R255, R306, R345). -/
theorem transformVertex_transformsTo (s : State) (vtx : Bank Vec4) {t : TVertex × VProg × Bus} (h : transformVertex s vtx = .ok t) :
    transformsTo s vtx t.2.1 t.1 t.2.2 := by
  unfold transformVertex at h
  split at h
  case isTrue hm =>
    obtain ⟨r, hr, h⟩ := except_map_ok h
    subst h
    exact ⟨fun _ => ⟨hr, rfl⟩, fun hf => by rw [hm] at hf; cases hf⟩
  case isFalse hm =>
    cases h
    exact ⟨fun hf => absurd hf hm, fun _ => ⟨rfl, rfl, rfl⟩⟩

/-- The supported topologies are 5 to 9 (R373). -/
theorem topologyOk_eq (ty : BitVec 4) : (!topologyOk ty) = decide (ty.toNat < 5 ∨ 9 < ty.toNat) := by
  revert ty; decide

/-- Everything that emitting a vertex can do (R255). -/
theorem emit_emitsOne (vtx : Bank Vec4) (s : State) {t : State} (h : emit vtx s = .ok t) : emitsOne s vtx t := by
  refine ⟨emit_frame vtx s h, ?_, ?_, ?_, fun a ha => (emit_drawsIn vtx s h).2 a ha⟩
  · have hk := emit_program vtx s h
    unfold RunKept at hk
    rw [hk]
  all_goals
    intro hp
    unfold emit at h
    split at h
  · cases h; exact ⟨rfl, rfl, rfl⟩
  · contradiction
  · contradiction
  · obtain ⟨r, hr, h⟩ := except_bind_ok h
    obtain ⟨a, ha, h⟩ := except_map_ok h
    subst h
    obtain ⟨b, hb, ha⟩ := except_map_ok ha
    subst ha
    refine ⟨r.1, r.2.2, transformVertex_transformsTo s vtx hr, rfl, ?_⟩
    have := drawTriangles_drawsAll _ _ _ _ _ hb
    simpa [topologyOk_eq, drawOf] using this

end Sys2Proof.Machine
end

