-- ==== Sys2Proof/Laws/State.lean ====
section
/-! SUPPORT. The small lemmas of every named update of the state, one for each field (generated, each true by definition), and what
the accessors of channels, bindings and registers read after an update. -/

namespace Sys2Proof.Machine
open Sys2Proof

section setChan
variable (s : State) (ch : BitVec 5) (c : Channel)

@[simp] theorem State.setChan_par : (s.setChan ch c).par = s.par := rfl
@[simp] theorem State.setChan_objects : (s.setChan ch c).objects = s.objects := rfl
@[simp] theorem State.setChan_agenda : (s.setChan ch c).agenda = s.agenda := rfl
@[simp] theorem State.setChan_cur : (s.setChan ch c).cur = s.cur := rfl
@[simp] theorem State.setChan_hostData : (s.setChan ch c).hostData = s.hostData := rfl
@[simp] theorem State.setChan_chans : (s.setChan ch c).chans = bankSet .init s.chans ch.toNat c := rfl
@[simp] theorem State.setChan_subs : (s.setChan ch c).subs = s.subs := rfl
@[simp] theorem State.setChan_regs : (s.setChan ch c).regs = s.regs := rfl
@[simp] theorem State.setChan_surf : (s.setChan ch c).surf = s.surf := rfl
@[simp] theorem State.setChan_clear : (s.setChan ch c).clear = s.clear := rfl
@[simp] theorem State.setChan_pix : (s.setChan ch c).pix = s.pix := rfl
@[simp] theorem State.setChan_va : (s.setChan ch c).va = s.va := rfl
@[simp] theorem State.setChan_pvtx : (s.setChan ch c).pvtx = s.pvtx := rfl
@[simp] theorem State.setChan_prim : (s.setChan ch c).prim = s.prim := rfl
@[simp] theorem State.setChan_xf : (s.setChan ch c).xf = s.xf := rfl
@[simp] theorem State.setChan_vp : (s.setChan ch c).vp = s.vp := rfl
@[simp] theorem State.setChan_tex : (s.setChan ch c).tex = s.tex := rfl
@[simp] theorem State.setChan_cmb : (s.setChan ch c).cmb = s.cmb := rfl
@[simp] theorem State.setChan_irq : (s.setChan ch c).irq = s.irq := rfl
@[simp] theorem State.setChan_mmio : (s.setChan ch c).mmio = s.mmio := rfl
@[simp] theorem State.setChan_bus : (s.setChan ch c).bus = s.bus := rfl

end setChan

section setCur
variable (s : State) (c : Channel)

@[simp] theorem State.setCur_par : (s.setCur c).par = s.par := rfl
@[simp] theorem State.setCur_objects : (s.setCur c).objects = s.objects := rfl
@[simp] theorem State.setCur_agenda : (s.setCur c).agenda = s.agenda := rfl
@[simp] theorem State.setCur_cur : (s.setCur c).cur = s.cur := rfl
@[simp] theorem State.setCur_hostData : (s.setCur c).hostData = s.hostData := rfl
@[simp] theorem State.setCur_chans : (s.setCur c).chans = bankSet .init s.chans s.cur.toNat c := rfl
@[simp] theorem State.setCur_subs : (s.setCur c).subs = s.subs := rfl
@[simp] theorem State.setCur_regs : (s.setCur c).regs = s.regs := rfl
@[simp] theorem State.setCur_surf : (s.setCur c).surf = s.surf := rfl
@[simp] theorem State.setCur_clear : (s.setCur c).clear = s.clear := rfl
@[simp] theorem State.setCur_pix : (s.setCur c).pix = s.pix := rfl
@[simp] theorem State.setCur_va : (s.setCur c).va = s.va := rfl
@[simp] theorem State.setCur_pvtx : (s.setCur c).pvtx = s.pvtx := rfl
@[simp] theorem State.setCur_prim : (s.setCur c).prim = s.prim := rfl
@[simp] theorem State.setCur_xf : (s.setCur c).xf = s.xf := rfl
@[simp] theorem State.setCur_vp : (s.setCur c).vp = s.vp := rfl
@[simp] theorem State.setCur_tex : (s.setCur c).tex = s.tex := rfl
@[simp] theorem State.setCur_cmb : (s.setCur c).cmb = s.cmb := rfl
@[simp] theorem State.setCur_irq : (s.setCur c).irq = s.irq := rfl
@[simp] theorem State.setCur_mmio : (s.setCur c).mmio = s.mmio := rfl
@[simp] theorem State.setCur_bus : (s.setCur c).bus = s.bus := rfl

end setCur

section setGet
variable (s : State) (g : Word)

@[simp] theorem State.setGet_par : (s.setGet g).par = s.par := rfl
@[simp] theorem State.setGet_objects : (s.setGet g).objects = s.objects := rfl
@[simp] theorem State.setGet_agenda : (s.setGet g).agenda = s.agenda := rfl
@[simp] theorem State.setGet_cur : (s.setGet g).cur = s.cur := rfl
@[simp] theorem State.setGet_hostData : (s.setGet g).hostData = s.hostData := rfl
@[simp] theorem State.setGet_chans : (s.setGet g).chans = bankSet .init s.chans s.cur.toNat { curChan s with get := g } := rfl
@[simp] theorem State.setGet_subs : (s.setGet g).subs = s.subs := rfl
@[simp] theorem State.setGet_regs : (s.setGet g).regs = s.regs := rfl
@[simp] theorem State.setGet_surf : (s.setGet g).surf = s.surf := rfl
@[simp] theorem State.setGet_clear : (s.setGet g).clear = s.clear := rfl
@[simp] theorem State.setGet_pix : (s.setGet g).pix = s.pix := rfl
@[simp] theorem State.setGet_va : (s.setGet g).va = s.va := rfl
@[simp] theorem State.setGet_pvtx : (s.setGet g).pvtx = s.pvtx := rfl
@[simp] theorem State.setGet_prim : (s.setGet g).prim = s.prim := rfl
@[simp] theorem State.setGet_xf : (s.setGet g).xf = s.xf := rfl
@[simp] theorem State.setGet_vp : (s.setGet g).vp = s.vp := rfl
@[simp] theorem State.setGet_tex : (s.setGet g).tex = s.tex := rfl
@[simp] theorem State.setGet_cmb : (s.setGet g).cmb = s.cmb := rfl
@[simp] theorem State.setGet_irq : (s.setGet g).irq = s.irq := rfl
@[simp] theorem State.setGet_mmio : (s.setGet g).mmio = s.mmio := rfl
@[simp] theorem State.setGet_bus : (s.setGet g).bus = s.bus := rfl

end setGet

section setBurst
variable (s : State) (b : Burst)

@[simp] theorem State.setBurst_par : (s.setBurst b).par = s.par := rfl
@[simp] theorem State.setBurst_objects : (s.setBurst b).objects = s.objects := rfl
@[simp] theorem State.setBurst_agenda : (s.setBurst b).agenda = s.agenda := rfl
@[simp] theorem State.setBurst_cur : (s.setBurst b).cur = s.cur := rfl
@[simp] theorem State.setBurst_hostData : (s.setBurst b).hostData = s.hostData := rfl
@[simp] theorem State.setBurst_chans : (s.setBurst b).chans = bankSet .init s.chans s.cur.toNat { curChan s with burst := b } := rfl
@[simp] theorem State.setBurst_subs : (s.setBurst b).subs = s.subs := rfl
@[simp] theorem State.setBurst_regs : (s.setBurst b).regs = s.regs := rfl
@[simp] theorem State.setBurst_surf : (s.setBurst b).surf = s.surf := rfl
@[simp] theorem State.setBurst_clear : (s.setBurst b).clear = s.clear := rfl
@[simp] theorem State.setBurst_pix : (s.setBurst b).pix = s.pix := rfl
@[simp] theorem State.setBurst_va : (s.setBurst b).va = s.va := rfl
@[simp] theorem State.setBurst_pvtx : (s.setBurst b).pvtx = s.pvtx := rfl
@[simp] theorem State.setBurst_prim : (s.setBurst b).prim = s.prim := rfl
@[simp] theorem State.setBurst_xf : (s.setBurst b).xf = s.xf := rfl
@[simp] theorem State.setBurst_vp : (s.setBurst b).vp = s.vp := rfl
@[simp] theorem State.setBurst_tex : (s.setBurst b).tex = s.tex := rfl
@[simp] theorem State.setBurst_cmb : (s.setBurst b).cmb = s.cmb := rfl
@[simp] theorem State.setBurst_irq : (s.setBurst b).irq = s.irq := rfl
@[simp] theorem State.setBurst_mmio : (s.setBurst b).mmio = s.mmio := rfl
@[simp] theorem State.setBurst_bus : (s.setBurst b).bus = s.bus := rfl

end setBurst

section suspend
variable (s : State) (r : Wait)

@[simp] theorem State.suspend_par : (s.suspend r).par = s.par := rfl
@[simp] theorem State.suspend_objects : (s.suspend r).objects = s.objects := rfl
@[simp] theorem State.suspend_agenda : (s.suspend r).agenda = s.agenda := rfl
@[simp] theorem State.suspend_cur : (s.suspend r).cur = s.cur := rfl
@[simp] theorem State.suspend_hostData : (s.suspend r).hostData = s.hostData := rfl
@[simp] theorem State.suspend_chans : (s.suspend r).chans = bankSet .init s.chans s.cur.toNat { curChan s with pstate := .susp r } := rfl
@[simp] theorem State.suspend_subs : (s.suspend r).subs = s.subs := rfl
@[simp] theorem State.suspend_regs : (s.suspend r).regs = s.regs := rfl
@[simp] theorem State.suspend_surf : (s.suspend r).surf = s.surf := rfl
@[simp] theorem State.suspend_clear : (s.suspend r).clear = s.clear := rfl
@[simp] theorem State.suspend_pix : (s.suspend r).pix = s.pix := rfl
@[simp] theorem State.suspend_va : (s.suspend r).va = s.va := rfl
@[simp] theorem State.suspend_pvtx : (s.suspend r).pvtx = s.pvtx := rfl
@[simp] theorem State.suspend_prim : (s.suspend r).prim = s.prim := rfl
@[simp] theorem State.suspend_xf : (s.suspend r).xf = s.xf := rfl
@[simp] theorem State.suspend_vp : (s.suspend r).vp = s.vp := rfl
@[simp] theorem State.suspend_tex : (s.suspend r).tex = s.tex := rfl
@[simp] theorem State.suspend_cmb : (s.suspend r).cmb = s.cmb := rfl
@[simp] theorem State.suspend_irq : (s.suspend r).irq = s.irq := rfl
@[simp] theorem State.suspend_mmio : (s.suspend r).mmio = s.mmio := rfl
@[simp] theorem State.suspend_bus : (s.suspend r).bus = s.bus := rfl

end suspend

section setReg
variable (s : State) (ch : BitVec 5) (subc : BitVec 3) (m : BitVec 11) (d : Word)

@[simp] theorem State.setReg_par : (s.setReg ch subc m d).par = s.par := rfl
@[simp] theorem State.setReg_objects : (s.setReg ch subc m d).objects = s.objects := rfl
@[simp] theorem State.setReg_agenda : (s.setReg ch subc m d).agenda = s.agenda := rfl
@[simp] theorem State.setReg_cur : (s.setReg ch subc m d).cur = s.cur := rfl
@[simp] theorem State.setReg_hostData : (s.setReg ch subc m d).hostData = s.hostData := rfl
@[simp] theorem State.setReg_chans : (s.setReg ch subc m d).chans = s.chans := rfl
@[simp] theorem State.setReg_subs : (s.setReg ch subc m d).subs = s.subs := rfl
@[simp] theorem State.setReg_regs : (s.setReg ch subc m d).regs = bankSet 0 s.regs (regIndex ch subc m) d := rfl
@[simp] theorem State.setReg_surf : (s.setReg ch subc m d).surf = s.surf := rfl
@[simp] theorem State.setReg_clear : (s.setReg ch subc m d).clear = s.clear := rfl
@[simp] theorem State.setReg_pix : (s.setReg ch subc m d).pix = s.pix := rfl
@[simp] theorem State.setReg_va : (s.setReg ch subc m d).va = s.va := rfl
@[simp] theorem State.setReg_pvtx : (s.setReg ch subc m d).pvtx = s.pvtx := rfl
@[simp] theorem State.setReg_prim : (s.setReg ch subc m d).prim = s.prim := rfl
@[simp] theorem State.setReg_xf : (s.setReg ch subc m d).xf = s.xf := rfl
@[simp] theorem State.setReg_vp : (s.setReg ch subc m d).vp = s.vp := rfl
@[simp] theorem State.setReg_tex : (s.setReg ch subc m d).tex = s.tex := rfl
@[simp] theorem State.setReg_cmb : (s.setReg ch subc m d).cmb = s.cmb := rfl
@[simp] theorem State.setReg_irq : (s.setReg ch subc m d).irq = s.irq := rfl
@[simp] theorem State.setReg_mmio : (s.setReg ch subc m d).mmio = s.mmio := rfl
@[simp] theorem State.setReg_bus : (s.setReg ch subc m d).bus = s.bus := rfl

end setReg

section raise
variable (s : State) (k : DiagKind)

@[simp] theorem State.raise_par : (s.raise k).par = s.par := rfl
@[simp] theorem State.raise_objects : (s.raise k).objects = s.objects := rfl
@[simp] theorem State.raise_agenda : (s.raise k).agenda = s.agenda := rfl
@[simp] theorem State.raise_cur : (s.raise k).cur = s.cur := rfl
@[simp] theorem State.raise_hostData : (s.raise k).hostData = s.hostData := rfl
@[simp] theorem State.raise_chans : (s.raise k).chans = s.chans := rfl
@[simp] theorem State.raise_subs : (s.raise k).subs = s.subs := rfl
@[simp] theorem State.raise_regs : (s.raise k).regs = s.regs := rfl
@[simp] theorem State.raise_surf : (s.raise k).surf = s.surf := rfl
@[simp] theorem State.raise_clear : (s.raise k).clear = s.clear := rfl
@[simp] theorem State.raise_pix : (s.raise k).pix = s.pix := rfl
@[simp] theorem State.raise_va : (s.raise k).va = s.va := rfl
@[simp] theorem State.raise_pvtx : (s.raise k).pvtx = s.pvtx := rfl
@[simp] theorem State.raise_prim : (s.raise k).prim = s.prim := rfl
@[simp] theorem State.raise_xf : (s.raise k).xf = s.xf := rfl
@[simp] theorem State.raise_vp : (s.raise k).vp = s.vp := rfl
@[simp] theorem State.raise_tex : (s.raise k).tex = s.tex := rfl
@[simp] theorem State.raise_cmb : (s.raise k).cmb = s.cmb := rfl
@[simp] theorem State.raise_irq : (s.raise k).irq = s.irq := rfl
@[simp] theorem State.raise_mmio : (s.raise k).mmio = s.mmio := rfl
@[simp] theorem State.raise_bus : (s.raise k).bus = Machine.raise (who s) k s.bus := rfl

end raise

section updTex
variable (s : State) (t : Nat) (f : TexUnit → TexUnit)

@[simp] theorem State.updTex_par : (s.updTex t f).par = s.par := rfl
@[simp] theorem State.updTex_objects : (s.updTex t f).objects = s.objects := rfl
@[simp] theorem State.updTex_agenda : (s.updTex t f).agenda = s.agenda := rfl
@[simp] theorem State.updTex_cur : (s.updTex t f).cur = s.cur := rfl
@[simp] theorem State.updTex_hostData : (s.updTex t f).hostData = s.hostData := rfl
@[simp] theorem State.updTex_chans : (s.updTex t f).chans = s.chans := rfl
@[simp] theorem State.updTex_subs : (s.updTex t f).subs = s.subs := rfl
@[simp] theorem State.updTex_regs : (s.updTex t f).regs = s.regs := rfl
@[simp] theorem State.updTex_surf : (s.updTex t f).surf = s.surf := rfl
@[simp] theorem State.updTex_clear : (s.updTex t f).clear = s.clear := rfl
@[simp] theorem State.updTex_pix : (s.updTex t f).pix = s.pix := rfl
@[simp] theorem State.updTex_va : (s.updTex t f).va = s.va := rfl
@[simp] theorem State.updTex_pvtx : (s.updTex t f).pvtx = s.pvtx := rfl
@[simp] theorem State.updTex_prim : (s.updTex t f).prim = s.prim := rfl
@[simp] theorem State.updTex_xf : (s.updTex t f).xf = s.xf := rfl
@[simp] theorem State.updTex_vp : (s.updTex t f).vp = s.vp := rfl
@[simp] theorem State.updTex_tex : (s.updTex t f).tex = bankSet .init s.tex t (f (bankGet .init s.tex t)) := rfl
@[simp] theorem State.updTex_cmb : (s.updTex t f).cmb = s.cmb := rfl
@[simp] theorem State.updTex_irq : (s.updTex t f).irq = s.irq := rfl
@[simp] theorem State.updTex_mmio : (s.updTex t f).mmio = s.mmio := rfl
@[simp] theorem State.updTex_bus : (s.updTex t f).bus = s.bus := rfl

end updTex

section updStage
variable (s : State) (st : BitVec 3) (f : CmbStage → CmbStage)

@[simp] theorem State.updStage_par : (s.updStage st f).par = s.par := rfl
@[simp] theorem State.updStage_objects : (s.updStage st f).objects = s.objects := rfl
@[simp] theorem State.updStage_agenda : (s.updStage st f).agenda = s.agenda := rfl
@[simp] theorem State.updStage_cur : (s.updStage st f).cur = s.cur := rfl
@[simp] theorem State.updStage_hostData : (s.updStage st f).hostData = s.hostData := rfl
@[simp] theorem State.updStage_chans : (s.updStage st f).chans = s.chans := rfl
@[simp] theorem State.updStage_subs : (s.updStage st f).subs = s.subs := rfl
@[simp] theorem State.updStage_regs : (s.updStage st f).regs = s.regs := rfl
@[simp] theorem State.updStage_surf : (s.updStage st f).surf = s.surf := rfl
@[simp] theorem State.updStage_clear : (s.updStage st f).clear = s.clear := rfl
@[simp] theorem State.updStage_pix : (s.updStage st f).pix = s.pix := rfl
@[simp] theorem State.updStage_va : (s.updStage st f).va = s.va := rfl
@[simp] theorem State.updStage_pvtx : (s.updStage st f).pvtx = s.pvtx := rfl
@[simp] theorem State.updStage_prim : (s.updStage st f).prim = s.prim := rfl
@[simp] theorem State.updStage_xf : (s.updStage st f).xf = s.xf := rfl
@[simp] theorem State.updStage_vp : (s.updStage st f).vp = s.vp := rfl
@[simp] theorem State.updStage_tex : (s.updStage st f).tex = s.tex := rfl
@[simp] theorem State.updStage_cmb : (s.updStage st f).cmb = { s.cmb with stage := bankSet .init s.cmb.stage st.toNat (f (bankGet .init s.cmb.stage st.toNat)) } := rfl
@[simp] theorem State.updStage_irq : (s.updStage st f).irq = s.irq := rfl
@[simp] theorem State.updStage_mmio : (s.updStage st f).mmio = s.mmio := rfl
@[simp] theorem State.updStage_bus : (s.updStage st f).bus = s.bus := rfl

end updStage

section setAttr
variable (s : State) (slot : Nat) (c : BitVec 2) (d : Word)

@[simp] theorem State.setAttr_par : (s.setAttr slot c d).par = s.par := rfl
@[simp] theorem State.setAttr_objects : (s.setAttr slot c d).objects = s.objects := rfl
@[simp] theorem State.setAttr_agenda : (s.setAttr slot c d).agenda = s.agenda := rfl
@[simp] theorem State.setAttr_cur : (s.setAttr slot c d).cur = s.cur := rfl
@[simp] theorem State.setAttr_hostData : (s.setAttr slot c d).hostData = s.hostData := rfl
@[simp] theorem State.setAttr_chans : (s.setAttr slot c d).chans = s.chans := rfl
@[simp] theorem State.setAttr_subs : (s.setAttr slot c d).subs = s.subs := rfl
@[simp] theorem State.setAttr_regs : (s.setAttr slot c d).regs = s.regs := rfl
@[simp] theorem State.setAttr_surf : (s.setAttr slot c d).surf = s.surf := rfl
@[simp] theorem State.setAttr_clear : (s.setAttr slot c d).clear = s.clear := rfl
@[simp] theorem State.setAttr_pix : (s.setAttr slot c d).pix = s.pix := rfl
@[simp] theorem State.setAttr_va : (s.setAttr slot c d).va = s.va := rfl
@[simp] theorem State.setAttr_pvtx : (s.setAttr slot c d).pvtx = bankSet .zero s.pvtx slot (Vec4.set (bankGet .zero s.pvtx slot) c d) := rfl
@[simp] theorem State.setAttr_prim : (s.setAttr slot c d).prim = s.prim := rfl
@[simp] theorem State.setAttr_xf : (s.setAttr slot c d).xf = s.xf := rfl
@[simp] theorem State.setAttr_vp : (s.setAttr slot c d).vp = s.vp := rfl
@[simp] theorem State.setAttr_tex : (s.setAttr slot c d).tex = s.tex := rfl
@[simp] theorem State.setAttr_cmb : (s.setAttr slot c d).cmb = s.cmb := rfl
@[simp] theorem State.setAttr_irq : (s.setAttr slot c d).irq = s.irq := rfl
@[simp] theorem State.setAttr_mmio : (s.setAttr slot c d).mmio = s.mmio := rfl
@[simp] theorem State.setAttr_bus : (s.setAttr slot c d).bus = s.bus := rfl

end setAttr

section setAttrVec
variable (s : State) (slot : Nat) (v : Vec4)

@[simp] theorem State.setAttrVec_par : (s.setAttrVec slot v).par = s.par := rfl
@[simp] theorem State.setAttrVec_objects : (s.setAttrVec slot v).objects = s.objects := rfl
@[simp] theorem State.setAttrVec_agenda : (s.setAttrVec slot v).agenda = s.agenda := rfl
@[simp] theorem State.setAttrVec_cur : (s.setAttrVec slot v).cur = s.cur := rfl
@[simp] theorem State.setAttrVec_hostData : (s.setAttrVec slot v).hostData = s.hostData := rfl
@[simp] theorem State.setAttrVec_chans : (s.setAttrVec slot v).chans = s.chans := rfl
@[simp] theorem State.setAttrVec_subs : (s.setAttrVec slot v).subs = s.subs := rfl
@[simp] theorem State.setAttrVec_regs : (s.setAttrVec slot v).regs = s.regs := rfl
@[simp] theorem State.setAttrVec_surf : (s.setAttrVec slot v).surf = s.surf := rfl
@[simp] theorem State.setAttrVec_clear : (s.setAttrVec slot v).clear = s.clear := rfl
@[simp] theorem State.setAttrVec_pix : (s.setAttrVec slot v).pix = s.pix := rfl
@[simp] theorem State.setAttrVec_va : (s.setAttrVec slot v).va = s.va := rfl
@[simp] theorem State.setAttrVec_pvtx : (s.setAttrVec slot v).pvtx = bankSet .zero s.pvtx slot v := rfl
@[simp] theorem State.setAttrVec_prim : (s.setAttrVec slot v).prim = s.prim := rfl
@[simp] theorem State.setAttrVec_xf : (s.setAttrVec slot v).xf = s.xf := rfl
@[simp] theorem State.setAttrVec_vp : (s.setAttrVec slot v).vp = s.vp := rfl
@[simp] theorem State.setAttrVec_tex : (s.setAttrVec slot v).tex = s.tex := rfl
@[simp] theorem State.setAttrVec_cmb : (s.setAttrVec slot v).cmb = s.cmb := rfl
@[simp] theorem State.setAttrVec_irq : (s.setAttrVec slot v).irq = s.irq := rfl
@[simp] theorem State.setAttrVec_mmio : (s.setAttrVec slot v).mmio = s.mmio := rfl
@[simp] theorem State.setAttrVec_bus : (s.setAttrVec slot v).bus = s.bus := rfl

end setAttrVec

/-! ### Accessors -/

/-- A channel after a channel is set. -/
theorem chanAt_setChan (s : State) (ch c : BitVec 5) (x : Channel) :
    chanAt (s.setChan ch x) c = if c = ch then x else chanAt s c := by
  by_cases h : c = ch
  · simp [chanAt, h]
  · have : c.toNat ≠ ch.toNat := fun e => h (BitVec.eq_of_toNat_eq e)
    simp [chanAt, h, bankGet_set_other _ _ this]

@[simp] theorem chanAt_setChan_same (s : State) (ch : BitVec 5) (x : Channel) : chanAt (s.setChan ch x) ch = x := by
  simp [chanAt_setChan]

@[simp] theorem curChan_setCur (s : State) (c : Channel) : curChan (s.setCur c) = c := by simp [curChan, chanAt]

@[simp] theorem curChan_setBurst (s : State) (b : Burst) : curChan (s.setBurst b) = { curChan s with burst := b } := by
  simp [State.setBurst]

@[simp] theorem curChan_setGet (s : State) (g : Word) : curChan (s.setGet g) = { curChan s with get := g } := by
  simp [State.setGet]

@[simp] theorem curChan_suspend (s : State) (r : Wait) : curChan (s.suspend r) = { curChan s with pstate := .susp r } := by
  simp [State.suspend]

/-- Another channel than the current one after the current one is replaced. -/
theorem chanAt_setCur_other (s : State) (x : Channel) {c : BitVec 5} (h : c ≠ s.cur) : chanAt (s.setCur x) c = chanAt s c := by
  simp [State.setCur, chanAt_setChan, h]

/-- The registers of the subchannels lie apart (R35). -/
theorem regIndex_inj {ch ch' : BitVec 5} {subc subc' : BitVec 3} {m m' : BitVec 11}
    (h : regIndex ch subc m = regIndex ch' subc' m') : ch = ch' ∧ subc = subc' ∧ m = m' := by
  have h1 := subc.isLt; have h2 := subc'.isLt; have h3 := m.isLt; have h4 := m'.isLt
  unfold regIndex at h
  refine ⟨BitVec.eq_of_toNat_eq ?_, BitVec.eq_of_toNat_eq ?_, BitVec.eq_of_toNat_eq ?_⟩ <;> omega

/-- A register after a register is written (R167). -/
theorem regAt_setReg (s : State) (ch ch' : BitVec 5) (subc subc' : BitVec 3) (m m' : BitVec 11) (d : Word) :
    regAt (s.setReg ch subc m d) ch' subc' m' = if ch' = ch ∧ subc' = subc ∧ m' = m then d else regAt s ch' subc' m' := by
  by_cases h : ch' = ch ∧ subc' = subc ∧ m' = m
  · obtain ⟨rfl, rfl, rfl⟩ := h
    simp [regAt]
  · rw [if_neg h]
    have : regIndex ch' subc' m' ≠ regIndex ch subc m := fun e => h (regIndex_inj e)
    simp [regAt, bankGet_set_other _ _ this]

/-- The bindings of the subchannels lie apart (R35). -/
theorem subIndex_inj {ch ch' : BitVec 5} {subc subc' : BitVec 3} (h : subIndex ch subc = subIndex ch' subc') :
    ch = ch' ∧ subc = subc' := by
  have h1 := subc.isLt; have h2 := subc'.isLt
  unfold subIndex at h
  refine ⟨BitVec.eq_of_toNat_eq ?_, BitVec.eq_of_toNat_eq ?_⟩ <;> omega

/-! ### Resuming channels -/

/-- One channel after one is looked at for a resume (R606, R607). -/
theorem bankGet_resumeOne (r : Wait) (cs : Bank Channel) (ch c : Nat) :
    bankGet Channel.init (resumeOne r cs ch) c =
      if c = ch ∧ (bankGet Channel.init cs c).pstate = .susp r then { bankGet Channel.init cs c with pstate := .run }
      else bankGet Channel.init cs c := by
  by_cases hc : c = ch
  · subst hc
    by_cases h : (bankGet Channel.init cs c).pstate = .susp r <;> simp [resumeOne, h]
  · unfold resumeOne
    dsimp only
    split <;> simp [hc, bankGet_set_other]

/-- A channel after every channel that waits for `r` is set to RUN (R606, R607). -/
theorem bankGet_resumeAll (r : Wait) (cs : Bank Channel) (c : Nat) (hc : c < 32) :
    bankGet Channel.init (resumeAll r cs) c =
      if (bankGet Channel.init cs c).pstate = .susp r then { bankGet Channel.init cs c with pstate := .run }
      else bankGet Channel.init cs c := by
  have key : ∀ (l : List Nat) (cs : Bank Channel), bankGet Channel.init (l.foldl (resumeOne r) cs) c =
      if c ∈ l ∧ (bankGet Channel.init cs c).pstate = .susp r then { bankGet Channel.init cs c with pstate := .run }
      else bankGet Channel.init cs c := by
    intro l
    induction l with
    | nil => intro cs; simp
    | cons x rest ih =>
      intro cs
      rw [List.foldl_cons, ih, bankGet_resumeOne]
      by_cases h1 : c = x
      · subst h1
        by_cases h2 : (bankGet Channel.init cs c).pstate = .susp r <;> simp [h2]
      · simp [h1]
  rw [resumeAll, key]
  simp [hc]

/-! ### The interrupt line -/

/-- The bits of `PMC.intr` that `updateIrq` computes do not depend on what they were (R604). -/
theorem pmc_idem (x y z m : Word) (h : (y ||| z) &&& ~~~m = 0) :
    (((x &&& ~~~m) ||| y ||| z) &&& ~~~m) ||| y ||| z = (x &&& ~~~m) ||| y ||| z := by
  ext i hi
  have hk : ((y ||| z) &&& ~~~m)[i] = (0 : Word)[i] := by rw [h]
  simp at hk ⊢
  revert hk
  cases x[i] <;> cases y[i] <;> cases z[i] <;> cases m[i] <;> simp

/-- A bit that `updateIrq` sets is one of the two it computes. -/
theorem mirror_within (k : IrqBits) (a c : Bool) : (bitAt a k.pgraph.toNat ||| bitAt c k.pcrtc.toNat) &&& ~~~(pmcMirrorMask k) = 0 := by
  ext i hi
  cases a <;> cases c <;> simp [pmcMirrorMask, bitAt] <;> omega

/-- Recomputing the interrupt line twice is recomputing it once (R604). -/
theorem updateIrq_idem (k : IrqBits) (r : Irq) : updateIrq k (updateIrq k r) = updateIrq k r := by
  have h := pmc_idem r.pmcIntr _ _ (pmcMirrorMask k)
    (mirror_within k ((r.pgraphIntr &&& r.pgraphEnable) != 0) ((r.pcrtcIntr &&& r.pcrtcEnable) != 0))
  simp only [updateIrq, h, if_true]

/-! ### The interrupt registers as a field -/

section withIrq
variable (s : State) (f : Irq → Irq)

/-- Everything that `withIrq` can do. -/
theorem withIrq_eq : s.withIrq f = { s with irq := updateIrq s.par.irqBits (f s.irq) } := rfl

@[simp] theorem withIrq_irq : (s.withIrq f).irq = updateIrq s.par.irqBits (f s.irq) := rfl
@[simp] theorem withIrq_par : (s.withIrq f).par = s.par := rfl
@[simp] theorem withIrq_objects : (s.withIrq f).objects = s.objects := rfl
@[simp] theorem withIrq_agenda : (s.withIrq f).agenda = s.agenda := rfl
@[simp] theorem withIrq_cur : (s.withIrq f).cur = s.cur := rfl
@[simp] theorem withIrq_hostData : (s.withIrq f).hostData = s.hostData := rfl
@[simp] theorem withIrq_chans : (s.withIrq f).chans = s.chans := rfl
@[simp] theorem withIrq_subs : (s.withIrq f).subs = s.subs := rfl
@[simp] theorem withIrq_regs : (s.withIrq f).regs = s.regs := rfl
@[simp] theorem withIrq_surf : (s.withIrq f).surf = s.surf := rfl
@[simp] theorem withIrq_clear : (s.withIrq f).clear = s.clear := rfl
@[simp] theorem withIrq_pix : (s.withIrq f).pix = s.pix := rfl
@[simp] theorem withIrq_va : (s.withIrq f).va = s.va := rfl
@[simp] theorem withIrq_pvtx : (s.withIrq f).pvtx = s.pvtx := rfl
@[simp] theorem withIrq_prim : (s.withIrq f).prim = s.prim := rfl
@[simp] theorem withIrq_xf : (s.withIrq f).xf = s.xf := rfl
@[simp] theorem withIrq_vp : (s.withIrq f).vp = s.vp := rfl
@[simp] theorem withIrq_tex : (s.withIrq f).tex = s.tex := rfl
@[simp] theorem withIrq_cmb : (s.withIrq f).cmb = s.cmb := rfl
@[simp] theorem withIrq_mmio : (s.withIrq f).mmio = s.mmio := rfl
@[simp] theorem withIrq_bus : (s.withIrq f).bus = s.bus := rfl

end withIrq

/-! ### The enumerations and the MMIO map -/

/-- Everything `member` can answer (R152, R598). -/
theorem member_ok {α : Type} {table : List (Word × α)} {w : Word} {k : α} : member table w = .ok k ↔ table.lookup w = some k := by
  unfold member
  cases table.lookup w <;> simp

theorem member_error {α : Type} {table : List (Word × α)} {w : Word} {r : Refusal} :
    member table w = .error r ↔ table.lookup w = none ∧ r = .badEnum w := by
  unfold member
  cases table.lookup w <;> simp [eq_comm]

/-- The offset of a bus address in the aperture (R86). -/
@[simp] theorem mmioOffset_base (s : State) (off : Word) : mmioOffset s (s.par.mmioBase + off) = off := by
  unfold mmioOffset
  bv_omega

/-! ### The parameters (R10) -/

section placing
variable (s : State)

@[simp] theorem placeTables_tables : (placeTables s).par.tables = .init := rfl
@[simp] theorem placeTables_kelvinClass : (placeTables s).par.kelvinClass = s.par.kelvinClass := rfl
@[simp] theorem placeTables_physSize : (placeTables s).par.physSize = s.par.physSize := rfl
@[simp] theorem placeTables_wEps : (placeTables s).par.wEps = s.par.wEps := rfl
@[simp] theorem placeTables_pbBase : (placeTables s).par.pbBase = s.par.pbBase := rfl
@[simp] theorem placeTables_dxt35Mode : (placeTables s).par.dxt35Mode = s.par.dxt35Mode := rfl
@[simp] theorem placeTables_mmioBase : (placeTables s).par.mmioBase = s.par.mmioBase := rfl
@[simp] theorem placeTables_mmioMap : (placeTables s).par.mmioMap = s.par.mmioMap := rfl
@[simp] theorem placeTables_irqBits : (placeTables s).par.irqBits = s.par.irqBits := rfl
@[simp] theorem placeTables_enums : (placeTables s).par.enums = s.par.enums := rfl
@[simp] theorem placeTables_aaYScale : (placeTables s).par.aaYScale = s.par.aaYScale := rfl
@[simp] theorem placeTables_numerics : (placeTables s).par.numerics = s.par.numerics := rfl
@[simp] theorem placeTables_reset : placeTables .reset = .reset := rfl
@[simp] theorem reset_kelvinClass : State.reset.par.kelvinClass = Config.kelvinClass := rfl
@[simp] theorem reset_tables : State.reset.par.tables = .init := rfl
@[simp] theorem reset_mmioMap : State.reset.par.mmioMap = .init := rfl
@[simp] theorem reset_irqBits : State.reset.par.irqBits = .init := rfl
@[simp] theorem reset_enums : State.reset.par.enums = .init := rfl
@[simp] theorem reset_aaYScale : State.reset.par.aaYScale = aaYScaleInit := rfl
@[simp] theorem reset_numerics : State.reset.par.numerics = .init := rfl
@[simp] theorem reset_dxt35Mode : State.reset.par.dxt35Mode = .four := rfl
@[simp] theorem drawOf_dxt35Mode : (drawOf s).dxt35Mode = s.par.dxt35Mode := rfl
@[simp] theorem drawOf_enums : (drawOf s).enums = s.par.enums := rfl

end placing

end Sys2Proof.Machine
end

