-- ==== Sys2Proof/Tests/Slice0.lean ====
section
/-! SUPPORT. The model's own tests: decoding by words written out from the tables of 30_encoding.md, ill-formed terms, single effects
with the expected values of 95_test_vectors.md or worked out by hand from the rule named, and for each statement with hypotheses a
state and operands that meet them (`witness_<statement>`). -/

namespace Sys2Proof.Tests

-- One theorem after another: many at once run out of threads.
set_option Elab.async false

open Sys2Proof Sys2Proof.Machine

/-! ### Helpers -/

/-- The instruction that a method header of count 1 (R111) and its data word are. -/
def methodWord (header d : Word) : Except DecodeError Instr :=
  match decodeCommand header with
  | .increasing m _ _ => decode (.method m) [d]
  | i => .ok i

/-- A check of the next state; false where there is none. -/
def after (r : Run) (p : State → Bool) : Bool :=
  match r with
  | .next s => p s
  | .fault _ => false
  | .refused _ => false

/-- The run answers a next state. -/
def isNext (r : Run) : Bool := after r fun _ => true

/-- The refusal of a run. -/
def refusalOf (r : Run) : Option Refusal :=
  match r with
  | .refused e => some e
  | .next _ => none
  | .fault _ => none

theorem next_of_isNext {r : Run} (h : isNext r = true) : ∃ t, r = .next t := by
  cases r with
  | next s => exact ⟨s, rfl⟩
  | fault e => cases e
  | refused e => cases h

theorem refused_of_refusalOf {r : Run} {e : Refusal} (h : refusalOf r = some e) : r = .refused e := by
  cases r with
  | next s => cases h
  | fault f => cases f
  | refused x => simpa [refusalOf] using h

/-! ### Decoding (R110, R112, R121, R130) -/

theorem test_decode_commands :
    decodeCommand 0x00001001 = .jump 0x400 ∧ decodeCommand 0xFFFFFFFD = .jump 0x3FFFFFFF ∧
    decodeCommand 0x00002002 = .call 0x800 ∧
    decodeCommand 0x00042208 = .increasing 0x082 1 1 ∧ decodeCommand 0x1FFCFFFC = .increasing 0x7FF 7 0x7FF ∧
    decodeCommand 0x400C1500 = .nonincreasing 0x540 0 3 ∧
    decodeCommand 0x00031818 = .longNonincreasing 0x606 0 ∧
    decodeCommand 0x00020000 = .ret ∧
    decodeCommand 0x3FFFFFFC = .oldJump 0x7FFFFFF ∧
    decodeCommand 0x00010100 = .sliConditional 0x40 := by decide +kernel

theorem test_decode_invalid :
    decodeCommand 0x00000003 = .invalid 0x00000003 ∧ decodeCommand 0x80000000 = .invalid 0x80000000 ∧
    decodeCommand 0x60000000 = .invalid 0x60000000 ∧ decodeCommand 0x00050000 = .invalid 0x00050000 ∧
    decodeCommand 0x00020004 = .invalid 0x00020004 ∧ decodeCommand 0x1FFFFFFC = .invalid 0x1FFFFFFC := by decide +kernel

/-- `INC 3 0x0000 1` and its handle (R166). -/
theorem test_decode_bind :
    decodeCommand 0x00046000 = .increasing 0 3 1 ∧ decode .bind [0xBEEF0001] = .ok (.bindObject 0xBEEF0001) := by decide +kernel

theorem test_decode_methods_1 :
    methodWord 0x00040100 0x1100000A = .ok (.noOperation 0x1100000A) ∧
    methodWord 0x00040130 0x1100000B = .ok (.waitForVblank 0x1100000B) ∧
    methodWord 0x00040200 0x1100000C = .ok (.surfaceClipHorizontal 0x1100000C) ∧
    methodWord 0x00040204 0x1100000D = .ok (.surfaceClipVertical 0x1100000D) ∧
    methodWord 0x00040208 0x1100000E = .ok (.surfaceFormat 0x1100000E) ∧
    methodWord 0x0004020C 0x1100000F = .ok (.surfacePitch 0x1100000F) ∧
    methodWord 0x00040210 0x11000010 = .ok (.surfaceColorOffset 0x11000010) ∧
    methodWord 0x00040214 0x11000011 = .ok (.surfaceZetaOffset 0x11000011) ∧
    methodWord 0x00040274 0x11000012 = .ok (.combinerAlphaIcw 5 0x11000012) ∧
    methodWord 0x00040288 0x11000013 = .ok (.combinerSpecularFogCw0 0x11000013) ∧
    methodWord 0x0004028C 0x11000014 = .ok (.combinerSpecularFogCw1 0x11000014) ∧
    methodWord 0x00040300 0x11000015 = .ok (.alphaTestEnable 0x11000015) := by decide +kernel

theorem test_decode_methods_2 :
    methodWord 0x00040304 0x11000016 = .ok (.blendEnable 0x11000016) ∧
    methodWord 0x0004030C 0x11000017 = .ok (.depthTestEnable 0x11000017) ∧
    methodWord 0x0004032C 0x11000018 = .ok (.stencilTestEnable 0x11000018) ∧
    methodWord 0x0004033C 0x11000019 = .ok (.alphaFunc 0x11000019) ∧
    methodWord 0x00040340 0x1100001A = .ok (.alphaRef 0x1100001A) ∧
    methodWord 0x00040344 0x1100001B = .ok (.blendFuncSfactor 0x1100001B) ∧
    methodWord 0x00040348 0x1100001C = .ok (.blendFuncDfactor 0x1100001C) ∧
    methodWord 0x0004034C 0x1100001D = .ok (.blendColor 0x1100001D) ∧
    methodWord 0x00040350 0x1100001E = .ok (.blendEquation 0x1100001E) ∧
    methodWord 0x00040354 0x1100001F = .ok (.depthFunc 0x1100001F) ∧
    methodWord 0x00040358 0x11000020 = .ok (.colorMask 0x11000020) ∧
    methodWord 0x0004035C 0x11000021 = .ok (.depthMask 0x11000021) := by decide +kernel

theorem test_decode_methods_3 :
    methodWord 0x00040360 0x11000022 = .ok (.stencilMask 0x11000022) ∧
    methodWord 0x00040364 0x11000023 = .ok (.stencilFunc 0x11000023) ∧
    methodWord 0x00040368 0x11000024 = .ok (.stencilFuncRef 0x11000024) ∧
    methodWord 0x0004036C 0x11000025 = .ok (.stencilFuncMask 0x11000025) ∧
    methodWord 0x00040370 0x11000026 = .ok (.stencilOpFail 0x11000026) ∧
    methodWord 0x00040374 0x11000027 = .ok (.stencilOpZfail 0x11000027) ∧
    methodWord 0x00040378 0x11000028 = .ok (.stencilOpZpass 0x11000028) ∧
    methodWord 0x0004047C 0x11000029 = .ok (.projectionMatrix 15 0x11000029) ∧
    methodWord 0x00040494 0x1100002A = .ok (.modelViewMatrix 5 0x1100002A) ∧
    methodWord 0x000405BC 0x1100002B = .ok (.inverseModelViewMatrix 15 0x1100002B) ∧
    methodWord 0x00040694 0x1100002C = .ok (.compositeMatrix 5 0x1100002C) ∧
    methodWord 0x00040A28 0x1100002D = .ok (.viewportOffset 2 0x1100002D) := by decide +kernel

theorem test_decode_methods_4 :
    methodWord 0x00040A74 0x1100002E = .ok (.combinerFactor0 5 0x1100002E) ∧
    methodWord 0x00040A9C 0x1100002F = .ok (.combinerFactor1 7 0x1100002F) ∧
    methodWord 0x00040AB4 0x11000030 = .ok (.combinerAlphaOcw 5 0x11000030) ∧
    methodWord 0x00040ADC 0x11000031 = .ok (.combinerColorIcw 7 0x11000031) ∧
    methodWord 0x00040AF4 0x11000032 = .ok (.viewportScale 1 0x11000032) ∧
    methodWord 0x00040B7C 0x11000033 = .ok (.transformProgram 31 0x11000033) ∧
    methodWord 0x00040BD4 0x11000034 = .ok (.transformConstant 21 0x11000034) ∧
    methodWord 0x00041500 0x11000035 = .ok (.vertex3f0 0x11000035) ∧
    methodWord 0x00041504 0x11000036 = .ok (.vertex3f1 0x11000036) ∧
    methodWord 0x00041508 0x11000037 = .ok (.vertex3f2 0x11000037) ∧
    methodWord 0x00041518 0x11000038 = .ok (.vertex4f0 0x11000038) ∧
    methodWord 0x0004151C 0x11000039 = .ok (.vertex4f1 0x11000039) := by decide +kernel

theorem test_decode_methods_5 :
    methodWord 0x00041520 0x1100003A = .ok (.vertex4f2 0x1100003A) ∧
    methodWord 0x00041524 0x1100003B = .ok (.vertex4f3 0x1100003B) ∧
    methodWord 0x00041720 0x1100003C = .ok (.vertexDataArrayOffset0 0x1100003C) ∧
    methodWord 0x00041724 0x1100003D = .ok (.vertexDataArrayOffset1 0x1100003D) ∧
    methodWord 0x00041728 0x1100003E = .ok (.vertexDataArrayOffset2 0x1100003E) ∧
    methodWord 0x0004172C 0x1100003F = .ok (.vertexDataArrayOffset3 0x1100003F) ∧
    methodWord 0x00041730 0x11000040 = .ok (.vertexDataArrayOffset4 0x11000040) ∧
    methodWord 0x00041734 0x11000041 = .ok (.vertexDataArrayOffset5 0x11000041) ∧
    methodWord 0x00041738 0x11000042 = .ok (.vertexDataArrayOffset6 0x11000042) ∧
    methodWord 0x0004173C 0x11000043 = .ok (.vertexDataArrayOffset7 0x11000043) ∧
    methodWord 0x00041740 0x11000044 = .ok (.vertexDataArrayOffset8 0x11000044) ∧
    methodWord 0x00041744 0x11000045 = .ok (.vertexDataArrayOffset9 0x11000045) := by decide +kernel

theorem test_decode_methods_6 :
    methodWord 0x00041748 0x11000046 = .ok (.vertexDataArrayOffset10 0x11000046) ∧
    methodWord 0x0004174C 0x11000047 = .ok (.vertexDataArrayOffset11 0x11000047) ∧
    methodWord 0x00041750 0x11000048 = .ok (.vertexDataArrayOffset12 0x11000048) ∧
    methodWord 0x00041754 0x11000049 = .ok (.vertexDataArrayOffset13 0x11000049) ∧
    methodWord 0x00041758 0x1100004A = .ok (.vertexDataArrayOffset14 0x1100004A) ∧
    methodWord 0x0004175C 0x1100004B = .ok (.vertexDataArrayOffset15 0x1100004B) ∧
    methodWord 0x00041760 0x1100004C = .ok (.vertexDataArrayFormat0 0x1100004C) ∧
    methodWord 0x00041764 0x1100004D = .ok (.vertexDataArrayFormat1 0x1100004D) ∧
    methodWord 0x00041768 0x1100004E = .ok (.vertexDataArrayFormat2 0x1100004E) ∧
    methodWord 0x0004176C 0x1100004F = .ok (.vertexDataArrayFormat3 0x1100004F) ∧
    methodWord 0x00041770 0x11000050 = .ok (.vertexDataArrayFormat4 0x11000050) ∧
    methodWord 0x00041774 0x11000051 = .ok (.vertexDataArrayFormat5 0x11000051) := by decide +kernel

theorem test_decode_methods_7 :
    methodWord 0x00041778 0x11000052 = .ok (.vertexDataArrayFormat6 0x11000052) ∧
    methodWord 0x0004177C 0x11000053 = .ok (.vertexDataArrayFormat7 0x11000053) ∧
    methodWord 0x00041780 0x11000054 = .ok (.vertexDataArrayFormat8 0x11000054) ∧
    methodWord 0x00041784 0x11000055 = .ok (.vertexDataArrayFormat9 0x11000055) ∧
    methodWord 0x00041788 0x11000056 = .ok (.vertexDataArrayFormat10 0x11000056) ∧
    methodWord 0x0004178C 0x11000057 = .ok (.vertexDataArrayFormat11 0x11000057) ∧
    methodWord 0x00041790 0x11000058 = .ok (.vertexDataArrayFormat12 0x11000058) ∧
    methodWord 0x00041794 0x11000059 = .ok (.vertexDataArrayFormat13 0x11000059) ∧
    methodWord 0x00041798 0x1100005A = .ok (.vertexDataArrayFormat14 0x1100005A) ∧
    methodWord 0x0004179C 0x1100005B = .ok (.vertexDataArrayFormat15 0x1100005B) ∧
    methodWord 0x000417BC 0x1100005C = .ok (.logicOpEnable 0x1100005C) ∧
    methodWord 0x000417C0 0x1100005D = .ok (.logicOp 0x1100005D) := by decide +kernel

theorem test_decode_methods_8 :
    methodWord 0x000417FC 0x1100005E = .ok (.beginEnd 0x1100005E) ∧
    methodWord 0x00041800 0x1100005F = .ok (.arrayElement16 0x1100005F) ∧
    methodWord 0x00041808 0x11000060 = .ok (.arrayElement32 0x11000060) ∧
    methodWord 0x00041810 0x11000061 = .ok (.drawArrays 0x11000061) ∧
    methodWord 0x00041818 0x11000062 = .ok (.inlineArray 0x11000062) ∧
    methodWord 0x000418FC 0x11000063 = .ok (.vertexData2fM 15 1 0x11000063) ∧
    methodWord 0x00041914 0x11000064 = .ok (.vertexData2s 5 0x11000064) ∧
    methodWord 0x0004197C 0x11000065 = .ok (.vertexData4ub 15 0x11000065) ∧
    methodWord 0x000419AC 0x11000066 = .ok (.vertexData4sM 5 1 0x11000066) ∧
    methodWord 0x00041AF8 0x11000067 = .ok (.vertexData4fM 15 2 0x11000067) ∧
    methodWord 0x00041B00 0x11000068 = .ok (.textureOffset0 0x11000068) ∧
    methodWord 0x00041B40 0x11000069 = .ok (.textureOffset1 0x11000069) := by decide +kernel

theorem test_decode_methods_9 :
    methodWord 0x00041B80 0x1100006A = .ok (.textureOffset2 0x1100006A) ∧
    methodWord 0x00041BC0 0x1100006B = .ok (.textureOffset3 0x1100006B) ∧
    methodWord 0x00041B04 0x1100006C = .ok (.textureFormat0 0x1100006C) ∧
    methodWord 0x00041B44 0x1100006D = .ok (.textureFormat1 0x1100006D) ∧
    methodWord 0x00041B84 0x1100006E = .ok (.textureFormat2 0x1100006E) ∧
    methodWord 0x00041BC4 0x1100006F = .ok (.textureFormat3 0x1100006F) ∧
    methodWord 0x00041B08 0x11000070 = .ok (.textureAddress0 0x11000070) ∧
    methodWord 0x00041B48 0x11000071 = .ok (.textureAddress1 0x11000071) ∧
    methodWord 0x00041B88 0x11000072 = .ok (.textureAddress2 0x11000072) ∧
    methodWord 0x00041BC8 0x11000073 = .ok (.textureAddress3 0x11000073) ∧
    methodWord 0x00041B0C 0x11000074 = .ok (.textureControl0N0 0x11000074) ∧
    methodWord 0x00041B4C 0x11000075 = .ok (.textureControl0N1 0x11000075) := by decide +kernel

theorem test_decode_methods_10 :
    methodWord 0x00041B8C 0x11000076 = .ok (.textureControl0N2 0x11000076) ∧
    methodWord 0x00041BCC 0x11000077 = .ok (.textureControl0N3 0x11000077) ∧
    methodWord 0x00041B10 0x11000078 = .ok (.textureControl1N0 0x11000078) ∧
    methodWord 0x00041B50 0x11000079 = .ok (.textureControl1N1 0x11000079) ∧
    methodWord 0x00041B90 0x1100007A = .ok (.textureControl1N2 0x1100007A) ∧
    methodWord 0x00041BD0 0x1100007B = .ok (.textureControl1N3 0x1100007B) ∧
    methodWord 0x00041B1C 0x1100007C = .ok (.textureImageRect0 0x1100007C) ∧
    methodWord 0x00041B5C 0x1100007D = .ok (.textureImageRect1 0x1100007D) ∧
    methodWord 0x00041B9C 0x1100007E = .ok (.textureImageRect2 0x1100007E) ∧
    methodWord 0x00041BDC 0x1100007F = .ok (.textureImageRect3 0x1100007F) ∧
    methodWord 0x00041D8C 0x11000080 = .ok (.zstencilClearValue 0x11000080) ∧
    methodWord 0x00041D90 0x11000081 = .ok (.colorClearValue 0x11000081) := by decide +kernel

theorem test_decode_methods_11 :
    methodWord 0x00041D94 0x11000082 = .ok (.clearSurface 0x11000082) ∧
    methodWord 0x00041D98 0x11000083 = .ok (.clearRectHorizontal 0x11000083) ∧
    methodWord 0x00041D9C 0x11000084 = .ok (.clearRectVertical 0x11000084) ∧
    methodWord 0x00041E24 0x11000085 = .ok (.specularFogFactor 1 0x11000085) ∧
    methodWord 0x00041E54 0x11000086 = .ok (.combinerColorOcw 5 0x11000086) ∧
    methodWord 0x00041E60 0x11000087 = .ok (.combinerControl 0x11000087) ∧
    methodWord 0x00041E94 0x11000088 = .ok (.transformExecutionMode 0x11000088) ∧
    methodWord 0x00041E9C 0x11000089 = .ok (.transformProgramLoad 0x11000089) ∧
    methodWord 0x00041EA0 0x1100008A = .ok (.transformProgramStart 0x1100008A) ∧
    methodWord 0x00041EA4 0x1100008B = .ok (.transformConstantLoad 0x1100008B) := by decide +kernel

/-- The fields of the sample words below, read off the layout of R130 by hand: w1[20:0] = 0xAB79E, w2 = 0x8A5DDFB2, w3 = 0x6D3A9FA7. -/
def vpSample : VpFields := ⟨0x55, 0xB, ⟨0x1, 0x9E, 0x8, 0x2⟩, ⟨0x1, 0x2E, 0xE, 0x3⟩, ⟨0x1, 0xEC, 0x9, 0x2⟩, 0xD, 0x3, 0xA, 0x9, 0x1, 0xF4, 0x1, 0x1, 0x1⟩

theorem test_decode_vector_slot :
    decode .vector [0, 0x0A0AB79E, 0x8A5DDFB2, 0x6D3A9FA7] = .ok (.vpNop 5 vpSample) ∧
    decode .vector [0, 0x0A2AB79E, 0x8A5DDFB2, 0x6D3A9FA7] = .ok (.vpMov 5 vpSample) ∧
    decode .vector [0, 0x0A4AB79E, 0x8A5DDFB2, 0x6D3A9FA7] = .ok (.vpMul 5 vpSample) ∧
    decode .vector [0, 0x0A6AB79E, 0x8A5DDFB2, 0x6D3A9FA7] = .ok (.vpAdd 5 vpSample) ∧
    decode .vector [0, 0x0A8AB79E, 0x8A5DDFB2, 0x6D3A9FA7] = .ok (.vpMad 5 vpSample) ∧
    decode .vector [0, 0x0AAAB79E, 0x8A5DDFB2, 0x6D3A9FA7] = .ok (.vpDp3 5 vpSample) ∧
    decode .vector [0, 0x0ACAB79E, 0x8A5DDFB2, 0x6D3A9FA7] = .ok (.vpDph 5 vpSample) ∧
    decode .vector [0, 0x0AEAB79E, 0x8A5DDFB2, 0x6D3A9FA7] = .ok (.vpDp4 5 vpSample) ∧
    decode .vector [0, 0x0B0AB79E, 0x8A5DDFB2, 0x6D3A9FA7] = .ok (.vpDst 5 vpSample) ∧
    decode .vector [0, 0x0B2AB79E, 0x8A5DDFB2, 0x6D3A9FA7] = .ok (.vpMin 5 vpSample) ∧
    decode .vector [0, 0x0B4AB79E, 0x8A5DDFB2, 0x6D3A9FA7] = .ok (.vpMax 5 vpSample) ∧
    decode .vector [0, 0x0B6AB79E, 0x8A5DDFB2, 0x6D3A9FA7] = .ok (.vpSlt 5 vpSample) ∧
    decode .vector [0, 0x0B8AB79E, 0x8A5DDFB2, 0x6D3A9FA7] = .ok (.vpSge 5 vpSample) ∧
    decode .vector [0, 0x0BAAB79E, 0x8A5DDFB2, 0x6D3A9FA7] = .ok (.vpArl 5 vpSample) := by decide +kernel

theorem test_decode_scalar_slot :
    decode .scalar [0, 0x012AB79E, 0x8A5DDFB2, 0x6D3A9FA7] = .ok (.vpSNop 9 vpSample) ∧
    decode .scalar [0, 0x032AB79E, 0x8A5DDFB2, 0x6D3A9FA7] = .ok (.vpSImv 9 vpSample) ∧
    decode .scalar [0, 0x052AB79E, 0x8A5DDFB2, 0x6D3A9FA7] = .ok (.vpSRcp 9 vpSample) ∧
    decode .scalar [0, 0x072AB79E, 0x8A5DDFB2, 0x6D3A9FA7] = .ok (.vpSRcc 9 vpSample) ∧
    decode .scalar [0, 0x092AB79E, 0x8A5DDFB2, 0x6D3A9FA7] = .ok (.vpSRsq 9 vpSample) ∧
    decode .scalar [0, 0x0B2AB79E, 0x8A5DDFB2, 0x6D3A9FA7] = .ok (.vpSExp 9 vpSample) ∧
    decode .scalar [0, 0x0D2AB79E, 0x8A5DDFB2, 0x6D3A9FA7] = .ok (.vpSLog 9 vpSample) ∧
    decode .scalar [0, 0x0F2AB79E, 0x8A5DDFB2, 0x6D3A9FA7] = .ok (.vpSLit 9 vpSample) := by decide +kernel

theorem test_decode_rejects :
    methodWord 0x00040104 0 = .error (.unassignedMethod 0x041) ∧
    methodWord 0x00041FFC 0 = .error (.unassignedMethod 0x7FF) ∧
    decode .vector [0, 0x01C00000, 0, 0] = .error (.reservedVop 14) ∧
    decode .vector [0, 0x01E00000, 0, 0] = .error (.reservedVop 15) ∧
    decode .scalar [0, 0x10000000, 0, 0] = .error (.reservedSop 8) ∧
    decode .scalar [0, 0x1E000000, 0, 0] = .error (.reservedSop 15) ∧
    decode .command [] = .error (.wrongLength 0) ∧
    decodeBytes .command [1, 0, 0] = .error (.wrongLength 3) := by decide +kernel

/-- Little-endian bytes (R83). -/
theorem test_decode_bytes : decodeBytes .command [0x01, 0x10, 0x00, 0x00] = .ok (.jump 0x400) := by decide +kernel

/-! ### Ill-formed terms (R110, R137 to R140) -/

/-- Kind 3 for every operand. -/
def vpPlain : VpFields := ⟨0, 0, ⟨0, 0x1B, 0, 3⟩, ⟨0, 0x1B, 0, 3⟩, ⟨0, 0x1B, 0, 3⟩, 0, 0, 0, 0, 0, 0, 0, 0, 0⟩

/-- The same with the kind of one operand 0. -/
def vpNoA : VpFields := { vpPlain with a := ⟨0, 0x1B, 0, 0⟩ }
def vpNoB : VpFields := { vpPlain with b := ⟨0, 0x1B, 0, 0⟩ }
def vpNoC : VpFields := { vpPlain with c := ⟨0, 0x1B, 0, 0⟩ }

theorem test_wellFormed_invalid_word : WellFormed (.invalid 0x00001001) = false ∧ WellFormed (.invalid 0x80000000) = true := by
  decide +kernel

theorem test_wellFormed_reserved_sop : WellFormed (.vpMov 8 vpPlain) = false ∧ WellFormed (.vpMov 7 vpPlain) = true := by
  decide +kernel

theorem test_wellFormed_reserved_vop : WellFormed (.vpSImv 14 vpPlain) = false ∧ WellFormed (.vpSImv 13 vpPlain) = true := by
  decide +kernel

theorem test_wellFormed_kind_a : WellFormed (.vpArl 0 vpNoA) = false ∧ WellFormed (.vpNop 0 vpNoA) = true := by decide +kernel

theorem test_wellFormed_kind_b : WellFormed (.vpMul 0 vpNoB) = false ∧ WellFormed (.vpAdd 0 vpNoB) = true := by decide +kernel

theorem test_wellFormed_kind_c :
    WellFormed (.vpMad 0 vpNoC) = false ∧ WellFormed (.vpMov 2 vpNoC) = false ∧ WellFormed (.vpMov 0 vpNoC) = true := by decide +kernel

/-! ### Effects: command words and synchronisation (95_test_vectors.md 2.1, 2.2, 2.5) -/

theorem test_jump : after (exec (.jump 0x400) .reset) (fun t => (chanAt t 0).get = 0x1000) = true := by decide +kernel

theorem test_call : after (exec (.call 0x800) .reset) (fun t => (chanAt t 0).get = 0x2000) = true := by decide +kernel

theorem test_oldJump : after (exec (.oldJump 0x7FFFFFF) .reset) (fun t => (chanAt t 0).get = 0x1FFFFFFC) = true := by decide +kernel

/-- Any target: RETURN at `GET = 0x100` leaves `GET = 0x104` and one diagnostic that carries it. -/
theorem test_return_step :
    after (step ((State.reset.setChan 0 ⟨0, 0x100, .run, .none⟩).withFetchWord 32 0x00020000))
      (fun t => (chanAt t 0).get = 0x104 && t.bus.diag = [⟨.unimplementedReturn, 0, 0x104⟩]) = true := by decide +kernel

theorem test_sliConditional :
    after (exec (.sliConditional 0x40) .reset) (fun t => t.bus.diag = [⟨.unimplementedCommand, 0, 0⟩]) = true := by decide +kernel

theorem test_invalid : after (exec (.invalid 0x80000000) .reset) (fun t => t.bus.diag = [⟨.badCommand, 0, 0⟩]) = true := by decide +kernel

/-- Count 2 on method 0 is no bind; count 1 is. -/
theorem test_increasing :
    after (exec (.increasing 0 3 1) .reset) (fun t => (chanAt t 0).burst = ⟨0, 3, 1, true, true, false⟩) = true ∧
    after (exec (.increasing 0 0 2) .reset) (fun t => (chanAt t 0).burst = ⟨0, 0, 2, true, false, false⟩) = true := by decide +kernel

theorem test_nonincreasing :
    after (exec (.nonincreasing 0 0 1) .reset) (fun t => (chanAt t 0).burst = ⟨0, 0, 1, false, false, false⟩) = true := by decide +kernel

theorem test_longNonincreasing :
    after (exec (.longNonincreasing 0x606 0) .reset) (fun t => (chanAt t 0).burst = ⟨0x606, 0, 0, false, false, true⟩) = true ∧
    after (longCount 0xFF000003 .reset) (fun t => (chanAt t 0).burst.count = 3) = true := by decide +kernel

/-- A handle that the host placed, and one that it did not. -/
def oneObject : State := hostPlaceObject 0 1 (some ⟨0x97, 0⟩) .reset

theorem test_bindObject :
    after (exec (.bindObject 1) oneObject) (fun t => subAt t 0 0 = ⟨1, 0x97⟩ && regAt t 0 0 0 = 1) = true ∧
    after (exec (.bindObject 2) oneObject) (fun t => subAt t 0 0 = ⟨0, 0⟩ && t.bus.diag = [⟨.unknownHandle, 0, 0⟩]) = true := by
  decide +kernel

/-- An increasing burst past method index 2047 goes on at 0, as an ordinary write. -/
theorem test_burst_wraps :
    after (dataWord 7 (State.reset.setChan 0 ⟨0, 0, .run, ⟨0x7FF, 0, 2, true, false, false⟩⟩))
      (fun t => (chanAt t 0).burst = ⟨0, 0, 1, true, false, false⟩ && regAt t 0 0 0x7FF = 7) = true := by decide +kernel

/-- A method through an unbound subchannel is stored only. -/
theorem test_unbound_method :
    after (dataWord 0x128 (State.reset.setChan 0 ⟨0, 0, .run, ⟨0x082, 2, 1, true, false, false⟩⟩))
      (fun t => regAt t 0 2 0x082 = 0x128 && t.surf = State.reset.surf) = true := by decide +kernel

/-- Channel 3, subchannel 2. -/
theorem test_noOperation :
    after (exec (.noOperation 1) { State.reset.setChan 3 ⟨0, 0, .run, ⟨0x40, 2, 1, true, false, false⟩⟩ with cur := 3 })
      (fun t => t.irq.notifySrc = 0x00320100 && t.irq.notifyData = 1 && t.irq.pgraphIntr = 0x00100000 && t.irq.line = false &&
        (chanAt t 3).pstate = .susp .pgraphIdle) = true := by decide +kernel

theorem test_waitForVblank : after (exec (.waitForVblank 0) .reset) (fun t => (chanAt t 0).pstate = .susp .vblank) = true := by
  decide +kernel

/-- Channel 0 waits for vblank, the two enables of the vector set. -/
def waiting : State :=
  { State.reset.setChan 0 ⟨0, 0, .susp .vblank, .none⟩ with
    irq := { State.reset.irq with pcrtcEnable := 1, pmcEnable := 0x01000000 }, agenda := [.vblank] }

theorem test_vblank :
    after (step waiting) (fun t => t.irq.pcrtcIntr = 1 && t.irq.pmcIntr = 0x01000000 && t.irq.line && t.irq.callbacks = [true] &&
      (chanAt t 0).pstate = .run) = true := by decide +kernel

/-- Channel 0 waits for PGRAPH with the notify bit set; the host writes `v`. -/
def notified (v : Word) : State :=
  { State.reset.setChan 0 ⟨0, 0, .susp .pgraphIdle, .none⟩ with
    irq := { State.reset.irq with pgraphIntr := 0x00100000 }, agenda := [.mmioWrite 0xFD400100 4 v] }

theorem test_pgraph_write :
    after (step (notified 1)) (fun t => t.irq.pgraphIntr = 0x00100000 && (chanAt t 0).pstate = .susp .pgraphIdle) = true ∧
    after (step (notified 0x00100000)) (fun t => t.irq.pgraphIntr = 0 && (chanAt t 0).pstate = .run) = true := by decide +kernel

/-- Another aperture, another offset of `PGRAPH.intr` and of `DMA_PUT`, other interrupt bits; words of a comparison and a scale moved, and
one value of `RCC_FN` and one of `POW`. -/
def otherParams : Params :=
  { Params.init with
    mmioBase := 0x10000000, mmioMap := { MmioMap.init with pgraphIntr := 0x00400108, dmaPut := 0x48 }, irqBits := ⟨5, 0, 1⟩
    enums := { Enums.init with compare := [(1, .never), (7, .always)] }, aaYScale := [(3, 4)]
    numerics := { Numerics.init with rcc := [(fOne, 0x40000000)], pow := [((fOne, fTwo), 0x40400000)] } }

/-- Channel 0 waits for PGRAPH, the pending bit 0 enabled, and the host writes 1 to the moved `PGRAPH.intr`. -/
def notifiedElsewhere (addr : Word) : State :=
  { State.reset.setChan 0 ⟨0, 0, .susp .pgraphIdle, .none⟩ with
    par := otherParams, agenda := [.mmioWrite addr 4 1]
    irq := { State.reset.irq with pgraphIntr := 1, pgraphEnable := 1, pmcIntr := 0x20, pmcEnable := 0x20, line := true, callbacks := [true] } }

theorem test_pgraph_write_elsewhere :
    after (step (notifiedElsewhere 0x10400108)) (fun t => t.irq.pgraphIntr = 0 && t.irq.pmcIntr = 0 && !t.irq.line &&
      t.irq.callbacks = [true, false] && (chanAt t 0).pstate = .run) = true ∧
    after (step (notifiedElsewhere 0x10400100)) (fun t => t.irq.pgraphIntr = 1 && t.mmio = [(0x00400100, 1)]) = true ∧
    after (step (notifiedElsewhere 0x109F0048)) (fun t => (chanAt t 31).put = 1) = true := by decide +kernel

/-! ### Effects: memory, surface, clear (2.3, 2.4) -/

def q64 : Who := ⟨0x04000000, 0, 0⟩

/-- Two bytes in range, two out of it. -/
theorem test_memRead_edge :
    memRead q64 4 0x03FFFFFE ⟨[(0x03FFFFFE, 0x34), (0x03FFFFFF, 0x12)], []⟩ =
      (0x1234, ⟨[(0x03FFFFFE, 0x34), (0x03FFFFFF, 0x12)], [⟨.oorRead, 0, 0⟩, ⟨.oorRead, 0, 0⟩]⟩) := by decide +kernel

theorem test_memWrite_edge :
    memWrite q64 4 0x03FFFFFF 0x12345678 ⟨[], []⟩ =
      ⟨[(0x03FFFFFF, 0x78)], [⟨.oorWrite, 0, 0⟩, ⟨.oorWrite, 0, 0⟩, ⟨.oorWrite, 0, 0⟩]⟩ := by decide +kernel

theorem test_dilation :
    dilate0 1 2 ||| dilate1 2 2 = 9 ∧ dilate0 5 3 = 0x11 ∧ dilate1 5 3 = 0x22 ∧ dilate0 0x7FFF 15 = 0x15555555 ∧
    dilate1 0x7FFF 15 = 0x2AAAAAAA ∧ dilate0 5 2 = 0x11 := by decide +kernel

/-- 4 by 2 pixels at 0x30000. -/
def target (fmt : BitVec 4) (zfmt : BitVec 4) (pitch : BitVec 16) : State :=
  { State.reset with
    surf := ⟨0, 4, 0, 2, fmt, zfmt, 1, 0, 0, 0, pitch, 16, 0x30000, 0x40000⟩
    clear := ⟨0x00112233, 0xFFFFFFAB, 0, 3, 0, 1⟩ }

theorem test_surfaceAddr :
    surfaceAddr { (target 8 0 32).surf with colorOffset := 0x10000 } 0x10000 32 4 3 5 = 0x100AC ∧
    surfaceAddr { (target 8 0 32).surf with layout := 2, log2w := 3, log2h := 3 } 0x10000 32 4 3 5 = 0x1009C := by decide +kernel

theorem test_surfaceFormat :
    after (exec (.surfaceFormat 0x0A090128) .reset) (fun t =>
      t.surf.colorFmt = 8 && t.surf.zetaFmt = 2 && t.surf.layout = 1 && t.surf.aa = 0 && t.surf.log2w = 9 && t.surf.log2h = 10) = true := by
  decide +kernel

theorem test_surfaceClip :
    after (exec (.surfaceClipHorizontal 0x02800000) .reset) (fun t => t.surf.clipX = 0 && t.surf.clipW = 640) = true ∧
    after (exec (.surfaceClipVertical 0x01E00010) .reset) (fun t => t.surf.clipY = 16 && t.surf.clipH = 480) = true := by decide +kernel

/-- R5G6B5 takes 0x1106: bytes 06 11 at every pixel, the last one at 0x3000E. -/
theorem test_clear_r5g6b5 :
    after (exec (.clearSurface 0xF0) (target 3 0 8)) (fun t =>
      memByte t.bus.mem 0x30000 = 0x06 && memByte t.bus.mem 0x30001 = 0x11 && memByte t.bus.mem 0x3000F = 0x11 &&
        memByte t.bus.mem 0x30010 = 0) = true := by decide +kernel

/-- S alone through a stencil mask of 0x0F, on a zeta word of 0x12345678: 0x1234567B. -/
theorem test_clear_stencil :
    (memRead q64 4 0x40000
      (clearPixel q64 (target 8 2 16).surf { PixelState.init with stencilWriteMask := 0x0F } (target 8 2 16).clear 2 0 0
        (memWrite q64 4 0x40000 0x12345678 ⟨[], []⟩))).1 = 0x1234567B := by decide +kernel

/-! ### Effects: per-pixel state (2.12, R550 to R570) -/

theorem test_compare :
    compare .init 0x201 1 2 = .ok true ∧ compare .init 0x201 2 2 = .ok false ∧ compare .init 0x203 2 2 = .ok true ∧ compare .init 0x204 2 1 = .ok true ∧
    compare .init 0x206 1 2 = .ok false ∧ compare .init 0x205 1 2 = .ok true ∧ compare .init 0x208 0 0 = .error (.badEnum 0x208) ∧
    compare otherParams.enums 7 0 1 = .ok true ∧ compare otherParams.enums 0x207 0 1 = .error (.badEnum 0x207) := by decide +kernel

theorem test_stencilOps :
    stencilRaw .init 0x1E02 0 255 = .ok 255 ∧ stencilRaw .init 0x1E03 0 0 = .ok 0 ∧ stencilRaw .init 0x8507 0 255 = .ok 0 ∧
    stencilRaw .init 0x8508 0 0 = .ok 255 ∧ stencilRaw .init 0x150A 0 0x0F = .ok 0xF0 ∧ stencilRaw .init 0x1E01 7 0 = .ok 7 := by decide +kernel

/-- S4, and each channel's own extreme. -/
theorem test_blend :
    blend .init PixelState.init 0x80FF0000 0xFF0000FF = .ok 0x80FF0000 ∧
    blend .init { PixelState.init with blendEq := 0x8007 } 0x10FF2040 0xFF00FF30 = .ok 0x10002030 ∧
    blend .init { PixelState.init with blendEq := 0x800A, blendDfactor := 1 } 0x00102030 0x00201030 = .ok 0x00001000 := by decide +kernel

theorem test_logicOp :
    logicOp .init 0x1506 0x0F0F0F0F 0x00FF00FF = .ok 0x0FF00FF0 ∧ logicOp .init 0x150D 0xFFFFFFFF 0x12345678 = .ok 0x12345678 ∧
    logicOp .init 0x1510 0 0 = .error (.badEnum 0x1510) := by decide +kernel

theorem test_colorMask :
    after (exec (.colorMask 0x01000001) .reset) (fun t => t.pix.cmaskA && !t.pix.cmaskR && !t.pix.cmaskG && t.pix.cmaskB) = true := by
  decide +kernel

theorem test_alphaRef : after (exec (.alphaRef 0x180) .reset) (fun t => t.pix.alphaRef = 0x80) = true := by decide +kernel

/-! ### Effects: transform, vertex program (2.6, 2.7) -/

/-- Matrix word 1 is row 0, column 1: it multiplies y into x. -/
theorem test_compositeMatrix :
    after (exec (.compositeMatrix 1 0x40000000) .reset) (fun t => (matrixRow t.xf.composite 0).y = 0x40000000) = true ∧
    (matrixVec [(1, 0x40000000)] ⟨0, 0x40400000, 0, 0⟩).x = 0x40C00000 := by decide +kernel

theorem test_viewport :
    after (exec (.viewportScale 0 0x43A00000) .reset) (fun t => (bankGet .zero t.vp.vpc 58).x = 0x43A00000) = true ∧
    after (exec (.viewportOffset 1 0x43700000) .reset) (fun t => (bankGet .zero t.vp.vpc 59).y = 0x43700000 &&
      t.xf.vpOffset.y = 0x43700000) = true := by decide +kernel

theorem test_transformConstant_edge :
    after (exec (.transformConstant 0 5) { State.reset with vp := { State.reset.vp with cLoad := 192 } })
      (fun t => t.vp.vpc = [] && t.bus.diag = [⟨.constOor, 0, 0⟩] && t.vp.cWord = 1) = true := by decide +kernel

theorem test_transformProgram :
    after (exec (.transformProgram 31 9) { State.reset with vp := { State.reset.vp with load := 255, word := 3 } })
      (fun t => vpiAt t.vp 255 3 = 9 && t.vp.load = 0 && t.vp.word = 0) = true := by decide +kernel

theorem test_executionMode :
    after (exec (.transformExecutionMode 3) .reset) (fun t => !t.vp.mode) = true ∧
    after (exec (.transformExecutionMode 2) .reset) (fun t => t.vp.mode) = true := by decide +kernel

/-- (1, 2, 3, 4) in v0, r2 and c0; (2, 2, 2, 2) in r3; (1, 1, 1, 1) in c7. -/
def vpState : State :=
  { State.reset with
    vp := { State.reset.vp with
      v := [(0, ⟨0x3F800000, 0x40000000, 0x40400000, 0x40800000⟩)]
      r := [(3, ⟨0x40000000, 0x40000000, 0x40000000, 0x40000000⟩)]
      vpc := [(7, ⟨0x3F800000, 0x3F800000, 0x3F800000, 0x3F800000⟩)] } }

/-- A is v0, B is r3, C is c7, the vector result goes to o3, the scalar one to r5. -/
def vpOps : VpFields := ⟨7, 0, ⟨0, 0x1B, 0, 2⟩, ⟨0, 0x1B, 3, 1⟩, ⟨0, 0x1B, 0, 3⟩, 0, 5, 0xF, 0xF, 1, 3, 0, 0, 0⟩

/-- The components of output 3. -/
def out3 (t : State) : Vec4 := bankGet .zero t.vp.o 3

/-- The components of temporary 5. -/
def temp5 (t : State) : Vec4 := bankGet .zero t.vp.r 5

theorem test_vpMov : after (exec (.vpMov 0 vpOps) vpState) (fun t => out3 t = ⟨0x3F800000, 0x40000000, 0x40400000, 0x40800000⟩) = true := by
  decide +kernel

theorem test_vpMul : after (exec (.vpMul 0 vpOps) vpState) (fun t => out3 t = ⟨0x40000000, 0x40800000, 0x40C00000, 0x41000000⟩) = true := by
  decide +kernel

theorem test_vpAdd : after (exec (.vpAdd 0 vpOps) vpState) (fun t => out3 t = ⟨0x40000000, 0x40400000, 0x40800000, 0x40A00000⟩) = true := by
  decide +kernel

theorem test_vpMad : after (exec (.vpMad 0 vpOps) vpState) (fun t => out3 t = ⟨0x40400000, 0x40A00000, 0x40E00000, 0x41100000⟩) = true := by
  decide +kernel

theorem test_vpDp3 : after (exec (.vpDp3 0 vpOps) vpState) (fun t => (out3 t).w = 0x41400000) = true := by decide +kernel

theorem test_vpDph : after (exec (.vpDph 0 vpOps) vpState) (fun t => (out3 t).x = 0x41600000) = true := by decide +kernel

theorem test_vpDp4 : after (exec (.vpDp4 0 vpOps) vpState) (fun t => (out3 t).y = 0x41A00000) = true := by decide +kernel

theorem test_vpDst : after (exec (.vpDst 0 vpOps) vpState) (fun t => out3 t = ⟨0x3F800000, 0x40800000, 0x40400000, 0x40000000⟩) = true := by
  decide +kernel

theorem test_vpMinMax :
    after (exec (.vpMin 0 vpOps) vpState) (fun t => out3 t = ⟨0x3F800000, 0x40000000, 0x40000000, 0x40000000⟩) = true ∧
    after (exec (.vpMax 0 vpOps) vpState) (fun t => out3 t = ⟨0x40000000, 0x40000000, 0x40400000, 0x40800000⟩) = true := by decide +kernel

theorem test_vpCompare :
    after (exec (.vpSlt 0 vpOps) vpState) (fun t => out3 t = ⟨0x3F800000, 0, 0, 0⟩) = true ∧
    after (exec (.vpSge 0 vpOps) vpState) (fun t => out3 t = ⟨0, 0x3F800000, 0x3F800000, 0x3F800000⟩) = true := by decide +kernel

/-- ARL of -0.5 and of 2.7. -/
theorem test_vpArl :
    arlValue ⟨0xBF000000, 0, 0, 0⟩ = 0xFFFFFFFF ∧ arlValue ⟨0x402CCCCD, 0, 0, 0⟩ = 2 ∧ arlValue ⟨0x7FC00000, 0, 0, 0⟩ = 0 ∧
    after (exec (.vpArl 0 vpOps) vpState) (fun t => t.vp.a0x = 1 && t.vp.o = []) = true := by decide +kernel

/-- The scalar result goes to r1 where a temporary takes the vector one, else to r5. -/
theorem test_vpSRcp_pairing :
    after (exec (.vpSRcp 1 { vpOps with vtMask := 0xF }) vpState) (fun t => (bankGet .zero t.vp.r 1).x = 0x3F800000 &&
      (temp5 t).w = 0x40800000) = true ∧
    after (exec (.vpSRcp 1 vpOps) vpState) (fun t => temp5 t = ⟨0x3F800000, 0x3F800000, 0x3F800000, 0x3F800000⟩) = true := by decide +kernel

theorem test_scalar_reciprocals :
    (scaRcp ⟨0x40800000, 0, 0, 0⟩).x = 0x3E800000 ∧ (scaRcp ⟨0x80000000, 0, 0, 0⟩).x = 0xFF800000 ∧
    (scaRcc .init ⟨0x40800000, 0, 0, 0⟩).y = 0x3E800000 ∧ (scaRcc otherParams.numerics ⟨fOne, 0, 0, 0⟩).z = 0x40000000 ∧
    (scaRsq ⟨0xC0800000, 0, 0, 0⟩).x = 0x3F000000 ∧
    (scaRsq ⟨0, 0, 0, 0⟩).w = 0x7F800000 := by decide +kernel

theorem test_scalar_powers :
    scaExp .init ⟨0x40200000, 0, 0, 0⟩ = ⟨0x40800000, 0x3F000000, 0x40B504F3, 0x3F800000⟩ ∧
    scaLog .init ⟨0xC1000000, 0, 0, 0⟩ = ⟨0x40400000, 0x3F800000, 0x40400000, 0x3F800000⟩ ∧
    scaLit .init ⟨0x40000000, 0x3F000000, 0, 0x40000000⟩ = ⟨0x3F800000, 0x3F800000, 0x3E800000, 0x3F800000⟩ := by decide +kernel

theorem test_constant_index :
    cidxEff { vpOps with cidx := 10, a0x := 1 } (BitVec.ofInt 32 (-20)) = 0 ∧ cidxEff { vpOps with cidx := 200 } 0 = 191 ∧
    cidxEff { vpOps with cidx := 100, a0x := 1 } 100 = 191 := by decide +kernel

theorem test_vp_reserved :
    refusalOf (exec (.vpSImv 14 vpOps) vpState) = some (.vpReserved 0) ∧
    refusalOf (exec (.vpMov 0 vpNoA) vpState) = some (.vpReserved 0) ∧ isNext (exec (.vpMov 0 vpNoC) vpState) = true := by decide +kernel

/-! ### Effects: vertices and triangles (2.6, 2.8 to 2.10) -/

theorem test_vertex3f_outside_begin :
    after (exec (.vertex3f2 0x3F000000) .reset) (fun t => attr t 0 = ⟨0, 0, 0x3F000000, 0x3F800000⟩ &&
      t.bus.diag = [⟨.vertexOutsideBegin, 0, 0⟩] && t.prim = State.reset.prim) = true := by decide +kernel

theorem test_vertexData2s : after (exec (.vertexData2s 1 0xFFFF0002) .reset) (fun t => attr t 1 = ⟨0x40000000, 0xBF800000, 0, 0x3F800000⟩) = true := by
  decide +kernel

theorem test_vertexData4ub :
    after (exec (.vertexData4ub 3 0xFF0000FF) .reset) (fun t => attr t 3 = ⟨0x3F800000, 0, 0, 0x3F800000⟩) = true := by decide +kernel

theorem test_vaFormat :
    after (exec (.vertexDataArrayFormat0 0x00001042) .reset) (fun t => slotAt t.va 0 = ⟨0, 2, 4, 16⟩) = true := by decide +kernel

/-- UB_D3D of bytes 10 20 30 40, and S1 of 7FFF 8001. -/
theorem test_fetchAttr :
    (fetchAttr q64 (memReader q64) ⟨0, 0, 4, 4⟩ 0x100 (memWrite q64 4 0x100 0x40302010 ⟨[], []⟩)).1 =
      ⟨from8 0x30, from8 0x20, from8 0x10, from8 0x40⟩ ∧
    (fetchAttr q64 (memReader q64) ⟨0, 1, 2, 4⟩ 0x100 (memWrite q64 4 0x100 0x80017FFF ⟨[], []⟩)).1 =
      ⟨0x3F800000, 0xBF800000, 0, 0x3F800000⟩ := by decide +kernel

theorem test_fetchAttr_unsupported :
    fetchAttr q64 (memReader q64) ⟨0, 3, 2, 4⟩ 0x100 ⟨[], []⟩ = (.zero, ⟨[], [⟨.unsupportedVtxType, 0, 0⟩]⟩) := by decide +kernel

theorem test_inlineArray_empty : after (exec (.inlineArray 5) .reset) (fun t => t.bus.diag = [⟨.emptyLayout, 0, 0⟩]) = true := by decide +kernel

theorem test_beginEnd :
    after (exec (.beginEnd 11) .reset) (fun t => t.prim.primType = 15 && t.bus.diag = [⟨.unsupportedTopology, 0, 0⟩]) = true ∧
    after (exec (.beginEnd 5) { State.reset with tex := [(0, { TexUnit.init with enable := true })] })
      (fun t => t.prim.primType = 5 && t.prim.rsel = .tex0) = true := by decide +kernel

/-- A vertex at (x, y) with w = 1, opaque red. -/
def corner (x y : Word) : TVertex := ⟨x, y, fOne, ⟨0, fOne, 0, 0, fOne, 0, 0, 0, 0, 0, 0, 0, 0⟩⟩

/-- The triangle (0,0), (4,0), (0,4). -/
def cover (x y : Nat) : Bool := covered (corner 0 0) (corner 0x40800000 0) (corner 0 0x40800000) x y

theorem test_covered :
    cover 0 0 = true ∧ cover 2 0 = true ∧ cover 1 1 = true ∧ cover 0 2 = true ∧ cover 3 0 = false ∧ cover 2 1 = false ∧ cover 0 3 = false := by
  decide +kernel

/-- The clip of 2.9: the fourth vertex of the polygon is (0, 1, w 0.5) before the divide. -/
theorem test_clipPolygon :
    (clipPolygon 0x3F000000 (corner 0 0) (corner 0x40800000 0) ⟨0, 0x40800000, 0xBF800000, (corner 0 0).p⟩).map (fun t => (t.x, t.y, t.w)) =
      [(0, 0, fOne), (0x40800000, 0, fOne), (0x40400000, 0x3F800000, 0x3F000000), (0, 0x3F800000, 0x3F000000)] := by decide +kernel

/-- One pixel of colour at the top of memory and of depth at 0x100; the first two corners of (0,0), (2,0), (0,2) are in the ring, the
third is one word away. -/
def triangleState : State :=
  { State.reset with
    surf := ⟨0, 1, 0, 1, 8, 2, 1, 0, 0, 0, 4, 4, 0x03FFFFFC, 0x100⟩
    prim := ⟨5, [(0, corner 0 0), (1, corner fTwo 0)], 2, 2, .flat⟩
    xf := { State.reset.xf with composite := [(0, fOne), (5, fOne), (10, fOne), (15, fOne)] }
    pvtx := [(0, ⟨0, fTwo, 0, 0⟩), (3, ⟨fOne, 0, 0, fOne⟩)] }

theorem test_triangle_drawn :
    after (exec (.vertex4f3 fOne) triangleState) (fun t =>
      (memRead q64 4 0x03FFFFFC t.bus).1 = 0xFFFF0000 && t.prim.vcount = 3 && t.bus.diag = []) = true := by decide +kernel

/-- A QUAD_STRIP's second pair, and a fan's kept vertex (2.8). -/
theorem test_completed :
    completed { (storeVertex triangleState.prim (corner 0 fTwo)) with primType := 8 } 3 =
      [(.zero, corner 0 0, corner fTwo 0), (.zero, corner fTwo 0, corner 0 fTwo)] ∧
    completed { triangleState.prim with primType := 7, ring := [(0, corner 0 0), (1, corner fTwo 0), (1024, corner 0 fTwo)] } 2 =
      [(corner 0 fTwo, corner 0 0, corner fTwo 0)] := by decide +kernel

/-! ### Effects: textures and combiners (S3, S5, 2.11, 2.13) -/

theorem test_textureFormat :
    after (exec (.textureFormat2 0x04220600) .reset) (fun t => texUnit t.tex 2 =
      { TexUnit.init with fmt := 6, mips := 2, log2u := 2, log2v := 4 }) = true := by decide +kernel

theorem test_dxt1 :
    (sampleDxt1 q64 0x100 0 (memWrite q64 8 0x100 0xE4E4E4E484108410 ⟨[], []⟩)).1 = 0xFF848284 ∧
    (sampleDxt1 q64 0x100 9 (memWrite q64 8 0x100 0xFFFFFFFFF800F800 ⟨[], []⟩)).1 = 0xFFFF0000 := by decide +kernel

/-- A DXT3 block of alpha 0x8, `c0 = 0x001F`, `c1 = 0xF800` and code 3 for texel 0, in each colour mode (R447, R445). -/
theorem test_dxt3_modes :
    [DxtColorMode.four, .three, .byOrder].map (fun m =>
      (sampleDxt3 q64 m 0x100 0 (memWrite q64 16 0x100 0x00000003F800001F8888888888888888 ⟨[], []⟩)).1) =
      [0x88AA0055, 0x88000000, 0x88000000] := by decide +kernel

theorem test_combinerControl :
    after (exec (.combinerControl 9) .reset) (fun t => t.cmb.stages = 8 && t.bus.diag = [⟨.cmbStages, 0, 0⟩]) = true := by decide +kernel

/-- S3 on (0.5, 0.25, 1.0). -/
theorem test_combine_pass :
    (combine q64 { State.reset.cmb with fcw0 := 0x04200000 } ⟨0x3F000000, 0x3E800000, 0x3F800000, fOne⟩ 0 0 0 0 ⟨[], []⟩).map
      (fun r => r.1 &&& 0x00FFFFFF) = .ok 0x008040FF := by decide +kernel

theorem test_to8 : to8 0x3F400000 = 0xBF ∧ to8 0x3E000000 = 0x20 ∧ to8 0xBF800000 = 0 ∧ to8 0x40000000 = 0xFF ∧ to8 0x7FC00000 = 0 := by
  decide +kernel

/-! ### Witnesses: a state and operands that meet each statement's hypotheses -/

theorem witness_DecodeEncodeRoundTrip : WellFormed (.vpMad 7 vpPlain) = true ∧ WellFormed (.invalid 0xFFFFFFFF) = true := by decide +kernel

theorem witness_WordsHaveOneReading :
    decodeMethod 0x7FF 0 = none ∧ decodeMethod 0x7A9 0 = some (.transformConstantLoad 0) ∧
    decodeMethod 0x6BF 1 = some (.vertexData4fM 15 3 1) := by decide +kernel

theorem witness_CommandTable :
    0xFFFFFFFD#32 &&& 0x00000003 = 0x00000001 ∧ 0xFFFFFFFE#32 &&& 0x00000003 = 0x00000002 ∧
    0x1FFCFFFC#32 &&& 0xE0030003 = 0 ∧ 0x5FFCFFFC#32 &&& 0xE0030003 = 0x40000000 ∧ 0x0003FFFC#32 &&& 0xFFFF0003 = 0x00030000 ∧
    0x3FFFFFFC#32 &&& 0xE0000003 = 0x20000000 ∧ 0x0001FFFC#32 &&& 0xFFFF0003 = 0x00010000 ∧
    decodeCommand 0x00020001 = .jump 0x8000 ∧ decodeCommand 0x00020004 = .invalid 0x00020004 := by decide +kernel

theorem witness_JumpsSetGet :
    decodeCommand 0xFFFFFFFD = .jump 0x3FFFFFFF ∧ decodeCommand 0xFFFFFFFE = .call 0x3FFFFFFF ∧
    decodeCommand 0x3FFFFFFC = .oldJump 0x7FFFFFF ∧ decodeCommand 1 = .jump 0 := by decide +kernel

theorem witness_BindObjectWord : objectLookup oneObject 0 1 = some ⟨0x97, 0⟩ ∧ objectLookup oneObject 0 0xFFFFFFFF = none := by decide +kernel

/-- The word `w` next in channel 0's ring, with the burst `b` in progress on a subchannel of the 3D class. -/
def ringState (w : Word) (b : Burst) : State := placeRingWord w b (placeBinding .reset)

theorem witness_StepRunsDecodedInstruction_command :
    (ringState 0x00001001 .none).agenda = [.puller 0] ∧ enabled (ringState 0x00001001 .none) 0 = true ∧
    (chanAt (ringState 0x00001001 .none) 0).burst = .none ∧
    decodeBytesBy (ringState 0x00001001 .none).par.tables .command (ringBytes (ringState 0x00001001 .none) 0) = .ok (.jump 0x400) := by
  decide +kernel

theorem witness_StepRunsDecodedInstruction_bind :
    enabled (ringState 5 (placeBurst 0 true)) 0 = true ∧ (chanAt (ringState 5 (placeBurst 0 true)) 0).burst = ⟨0, 0, 1, false, true, false⟩ ∧
    decodeBytesBy (ringState 5 (placeBurst 0 true)).par.tables .bind (ringBytes (ringState 5 (placeBurst 0 true)) 0) =
      .ok (.bindObject 5) := by decide +kernel

/-- Another class and another command table than the defaults: 0x4097, and 0x00000001 a RETURN. -/
def otherTables : State :=
  { State.reset with par := { State.reset.par with
      kelvinClass := 0x4097, tables := { Tables.init with cmdDecode := [⟨0xFFFFFFFF, 0x00000001, .ret⟩] } } }

theorem witness_StepRunsDecodedInstruction_method :
    enabled (ringState 5 (placeBurst 0x080 false)) 0 = true ∧
    (chanAt (ringState 5 (placeBurst 0x080 false)) 0).burst = ⟨0x080, 0, 1, false, false, false⟩ ∧
    (subAt (ringState 5 (placeBurst 0x080 false)) 0 0).cls = (ringState 5 (placeBurst 0x080 false)).par.kelvinClass ∧
    decodeBytesBy (ringState 5 (placeBurst 0x080 false)).par.tables (.method 0x080)
      (ringBytes (ringState 5 (placeBurst 0x080 false)) 0) = .ok (.surfaceClipHorizontal 5) ∧
    (subAt (placeRingWord 5 (placeBurst 0x080 false) (placeBinding otherTables)) 0 0).cls = 0x4097 ∧
    decodeBytesBy otherTables.par.tables .command (ringBytes (placeRingWord 1 .none otherTables) 0) = .ok .ret := by decide +kernel

/-- Channel 31 alone enabled, the agenda empty. -/
theorem witness_StepRunsDecodedInstruction_empty :
    (State.reset.setChan 31 ⟨4, 0, .run, .none⟩).agenda = [] ∧ enabled (State.reset.setChan 31 ⟨4, 0, .run, .none⟩) 31 = true ∧
    ∀ c : BitVec 5, c < 31 → enabled (State.reset.setChan 31 ⟨4, 0, .run, .none⟩) c = false := by decide +kernel

/-- `MOV o0, v0` with and without FINAL at instruction 255 (2.7). -/
def programState (final : Word) : State :=
  { State.reset with vp := { State.reset.vp with ip := 255, vpi := [(1021, 0x0020001B), (1022, 0x08000000), (1023, 0x0000F800 ||| final)] } }

def movO0 (final : BitVec 1) : VpFields := ⟨0, 0, ⟨0, 0x1B, 0, 2⟩, ⟨0, 0, 0, 0⟩, ⟨0, 0, 0, 0⟩, 0, 0, 0, 0xF, 1, 0, 0, 0, final⟩

theorem witness_ProgramRunsDecodedInstruction :
    (programState 1).vp.ip.toNat < 256 ∧ (programState 1).par.tables.vpLayout = vpLayout ∧
    decodeBy (programState 1).par.tables .vector ((List.range 4).map fun j => vpiAt (programState 1).vp 255 j) = .ok (.vpMov 0 (movO0 1)) ∧
    decodeBy (programState 0).par.tables .scalar ((List.range 4).map fun j => vpiAt (programState 0).vp 255 j) =
      .ok (.vpSNop 1 (movO0 0)) ∧
    isNext (exec (.vpMov 0 (movO0 1)) (programState 1)) = true ∧ isNext (exec (.vpSNop 1 (movO0 0)) (programState 0)) = true := by
  decide +kernel

theorem witness_DataWordBookkeeping :
    (∃ t, dataWord 5 (ringState 5 ⟨0x7FF, 0, 1, true, false, false⟩) = .next t) ∧
    decodeMethodBy (ringState 5 ⟨0x7FF, 0, 1, true, false, false⟩).par.tables.methodMap 0x7FF 5 = none ∧
    (subAt (ringState 5 ⟨0x080, 1, 1, true, false, false⟩) 0 1).cls ≠ (ringState 5 ⟨0x080, 1, 1, true, false, false⟩).par.kelvinClass :=
  ⟨next_of_isNext (by decide +kernel), by decide +kernel, by decide +kernel⟩

theorem witness_InterruptLineAndWaits : (1 : Word) ≠ 0 ∧ (0xFFFFFFFF : Word) ≠ 0 := by decide

theorem witness_ResumeEvents :
    waiting.agenda = .vblank :: [] ∧ (chanAt waiting 0).pstate = .susp .vblank ∧
    (notified 0x00100000).agenda =
      .mmioWrite ((notified 0x00100000).par.mmioBase + (notified 0x00100000).par.mmioMap.pgraphIntr) 4 0x00100000 :: [] ∧
    mapOk (notified 0x00100000).par.mmioMap = true ∧
    (chanAt (notified 0x00100000) 0).pstate = .susp .pgraphIdle ∧
    ((notified 1).irq.pgraphIntr &&& ~~~1#32) &&& (notified 1).par.irqBits.notify ≠ 0 ∧
    (notifiedElsewhere 0x10400108).agenda = .mmioWrite (otherParams.mmioBase + otherParams.mmioMap.pgraphIntr) 4 1 :: [] ∧
    mapOk otherParams.mmioMap = true := by decide +kernel

theorem witness_HostAccesses_map :
    mapOk State.reset.par.mmioMap = true ∧ windowOffset 0 0x40 = 0x00800040 ∧ windowOffset 31 0x40 = 0x009F0040 ∧
    windowOffset 0 0x44 = 0x00800044 ∧ windowOffset 31 0x44 = 0x009F0044 ∧ mapOk otherParams.mmioMap = true ∧
    mapOk { MmioMap.init with pmcEnable := 0x00000100 } = false ∧ mapOk { MmioMap.init with pmcEnable := 0x00810044 } = false := by
  decide +kernel

/-- Offset 0, an offset past the windows and one in a channel's window, from the base of reset; the base's own neighbour below. -/
theorem witness_HostAccesses_plain :
    ¬ namedOffset .init (0xFD000000 - State.reset.par.mmioBase) ∧ ¬ namedOffset .init (0xFDA00040 - State.reset.par.mmioBase) ∧
    ¬ namedOffset .init (0xFD800048 - State.reset.par.mmioBase) ∧ ¬ namedOffset .init (0xFCFFFFFC - State.reset.par.mmioBase) ∧
    (0xFCFFFFFC - State.reset.par.mmioBase).toNat % 4 = 0 ∧ (0xFD800048 - State.reset.par.mmioBase).toNat % 4 = 0 ∧
    (0xFD000101 - State.reset.par.mmioBase).toNat % 4 ≠ 0 := by
  unfold namedOffset; decide +kernel

/-- Four bytes from 0xFFFFFFFE go on at address 0 (assumption log 39). -/
theorem witness_HostAccesses_wrap :
    (0xFFFFFFFE#32 + BitVec.ofNat 32 2).toNat = 0 ∧ inBytes 1 0xFFFFFFFE 4 ∧ ¬ inBytes 2 0xFFFFFFFE 4 := by
  unfold inBytes
  exact ⟨by decide, ⟨3, by decide⟩, by rintro ⟨k, hk, h⟩; revert h; revert k; decide⟩

/-- A host write of four bytes across the end of memory. -/
theorem witness_HostAccesses_memory :
    { State.reset with agenda := [.memWrite 0x03FFFFFE [1, 2, 3, 4]] }.agenda = .memWrite 0x03FFFFFE [1, 2, 3, 4] :: [] ∧
    [(1 : Byte), 2, 3, 4].length ≤ 2 ^ 32 ∧ (0x03FFFFFE#32 + BitVec.ofNat 32 1).toNat < State.reset.par.physSize ∧
    State.reset.par.physSize ≤ (0x03FFFFFE#32 + BitVec.ofNat 32 2).toNat ∧ ¬ inBytes 0x03FFFFFD 0x03FFFFFE 4 := by
  unfold inBytes
  exact ⟨rfl, by decide, by decide +kernel, by decide +kernel, by rintro ⟨k, hk, h⟩; revert h; revert k; decide⟩

theorem witness_OnlyEventsResume :
    (∃ t, step waiting = .next t) ∧ (chanAt waiting 0).pstate = .susp .vblank ∧
    (∀ v, waiting.agenda.head? ≠ some (.mmioWrite (waiting.par.mmioBase + windowOffset 0 waiting.par.mmioMap.dmaGet) 4 v)) ∧
    (∃ t, step (notified 0x00100000) = .next t) ∧ (chanAt (notified 0x00100000) 0).pstate = .susp .pgraphIdle ∧
    ∀ v, (notified 0x00100000).agenda.head? ≠
      some (.mmioWrite ((notified 0x00100000).par.mmioBase + windowOffset 0 (notified 0x00100000).par.mmioMap.dmaPut) 4 v) := by
  refine ⟨next_of_isNext (by decide +kernel), by decide +kernel, ?_, next_of_isNext (by decide +kernel), by decide +kernel, ?_⟩
  · intro v h; simp [waiting] at h
  · intro v h
    have h2 : (0xFD400100 : Word) = 0xFD000000 + windowOffset 0 0x40 := by injection h with h; injection h
    revert h2; decide

/-- Channel 31 waits with words to read, and the host writes its `DMA_GET`. -/
def waiting31 : State :=
  { State.reset.setChan 31 ⟨8, 4, .susp .vblank, .none⟩ with agenda := [.mmioWrite 0xFD9F0044 4 0] }

/-- The host's write to `DMA_GET` of channel 31 while that channel waits, a puller move of a suspended channel with words to read, one of a
running channel with none, and no channel enabled. -/
theorem witness_OnlyEventsResume_moves :
    (chanAt waiting31 31).pstate = .susp .vblank ∧ waiting31.par.mmioBase + windowOffset 31 waiting31.par.mmioMap.dmaGet = 0xFD9F0044 ∧
    after (step waiting31) (fun t => (chanAt t 31).get = 0) = true ∧
    enabled (State.reset.setChan 31 ⟨8, 4, .susp .vblank, .none⟩) 31 = false ∧ enabled .reset 0 = false ∧
    State.reset.agenda = [] ∧ ∀ ch, enabled .reset ch = false := by decide +kernel

theorem witness_OnlyHostWrites :
    (∃ t, step (ringState 0x00001001 .none) = .next t) ∧
    (∀ ch h o, (ringState 0x00001001 .none).agenda.head? ≠ some (.placeObject ch h o)) ∧
    ∀ a v, (ringState 0x00001001 .none).agenda.head? ≠ some (.mmioWrite a 4 v) :=
  ⟨next_of_isNext (by decide +kernel), by intros; simp [ringState, placeRingWord], by intros; simp [ringState, placeRingWord]⟩

theorem witness_ChannelsIsolated :
    (ringState 0x00001001 .none).agenda = .puller 0 :: [] ∧ (∃ t, step (ringState 0x00001001 .none) = .next t) ∧ (31 : BitVec 5) ≠ 0 :=
  ⟨rfl, next_of_isNext (by decide +kernel), by decide⟩

theorem witness_DiagnosticsOnlyGrow : ∃ t, step (ringState 0x00020000 .none) = .next t := next_of_isNext (by decide +kernel)

/-- VERTEX4F(3) completes the triangle under the combiner shader with a reserved register code (1 stage, all words 6). -/
def reservedCombiner : State :=
  { triangleState with
    prim := { triangleState.prim with rsel := .combiner }
    cmb := ⟨1, [(0, ⟨0x06060606, 0, 0, 0, 0, 0⟩)], 0, 0, 0, 0⟩ }

/-- The same triangle with the alpha test enabled and a function that is no comparison. -/
def badAlphaFunc : State := { triangleState with pix := { PixelState.init with alphaTestEn := true, alphaFunc := 0x208 } }

theorem witness_RefusalsAreTheSpecs :
    step { State.reset with agenda := [.mmioRead 0xFD000100 2] } = .refused .mmioWidth ∧
    step (State.reset.withFetchWord 32 0x00200000) = .refused (.vpReserved 0) ∧
    step (placeRingWord fOne (placeBurst 0x549 false) (placeBinding reservedCombiner)) = .refused .cmbReserved ∧
    step (placeRingWord fOne (placeBurst 0x549 false) (placeBinding badAlphaFunc)) = .refused (.badEnum 0x208) :=
  ⟨refused_of_refusalOf (by decide +kernel), refused_of_refusalOf (by decide +kernel), refused_of_refusalOf (by decide +kernel),
    refused_of_refusalOf (by decide +kernel)⟩

/-- The four bytes at the top of memory, and the whole of an address space of 2^32 bytes. -/
theorem witness_MemoryReadAfterWrite :
    4 ≤ 2 ^ 32 ∧ inRange q64 4 0x03FFFFFC ∧ inRange ⟨2 ^ 32, 0, 0⟩ 4 0xFFFFFFFE ∧ ¬ inBytes 0x03FFFFFB 0x03FFFFFC 4 := by
  unfold inRange inBytes
  exact ⟨by decide, by decide, by decide, by rintro ⟨k, hk, h⟩; revert h; revert k; decide⟩

theorem witness_DilationBijection :
    (15 ≤ 15 ∧ 0x7FFF < 2 ^ 15 ∧ dilate0 0x7FFF 15 ||| dilate1 0x7FFF 15 < 2 ^ (2 * 15)) ∧ (0 ≤ 15 ∧ 0 < 2 ^ 0 ∧ 0 < 2 ^ (2 * 0)) := by
  decide +kernel

theorem witness_SurfaceMethods :
    State.reset.surf.aa = 0 ∧ { State.reset.surf with aa := 1 }.aa = 1 ∧ { State.reset.surf with aa := 2 }.aa = 2 ∧
    State.reset.par.aaYScale = aaYScaleInit ∧ otherParams.aaYScale.lookup 3 = some 4 := by decide

theorem witness_ClearSurfaceCompletes : ¬ clearedByte (target 8 0 16) 0x0F 0 := by
  rintro ⟨x, y, -, h | h⟩
  · exact h.1 (by decide)
  · exact absurd h.2.1 (by decide)

/-- The colour bytes of (x, y) are its own where no other pixel up to (3, 1) has one of them and no zeta byte is one. -/
theorem colorAlone_of (s : State) (d : Word) (x y : Nat) (hx : s.clear.x1.toNat = 3) (hy : s.clear.y1.toNat = 1)
    (h : ∀ k, k < colorBpp s.surf.colorFmt → ∀ x', x' < 4 → ∀ y', y' < 2 → ∀ k', k' < colorBpp s.surf.colorFmt →
      (decide (colorAddr s.surf x y + BitVec.ofNat 32 k ≠ colorAddr s.surf x' y' + BitVec.ofNat 32 k') || decide (x' = x ∧ y' = y)) = true)
    (h' : ∀ k, k < colorBpp s.surf.colorFmt → ∀ x', x' < 4 → ∀ y', y' < 2 → ∀ k', k' < zetaBpp s.surf.zetaFmt →
      colorAddr s.surf x y + BitVec.ofNat 32 k ≠ zetaAddr s.surf x' y' + BitVec.ofNat 32 k') :
    colorAlone s d x y := by
  rintro a ⟨-, -, k, hk, rfl⟩ x' y' ⟨-, h1, -, h2, -⟩
  exact ⟨fun ⟨_, _, k', hk', e⟩ => by simpa [e] using h k hk x' (by omega) y' (by omega) k' hk',
    fun ⟨_, _, k', hk', e⟩ => h' k hk x' (by omega) y' (by omega) k' hk' e⟩

/-- The same of the zeta bytes. -/
theorem zetaAlone_of (s : State) (d : Word) (x y : Nat) (hx : s.clear.x1.toNat = 3) (hy : s.clear.y1.toNat = 1)
    (h : ∀ k, k < zetaBpp s.surf.zetaFmt → ∀ x', x' < 4 → ∀ y', y' < 2 → ∀ k', k' < zetaBpp s.surf.zetaFmt →
      (decide (zetaAddr s.surf x y + BitVec.ofNat 32 k ≠ zetaAddr s.surf x' y' + BitVec.ofNat 32 k') || decide (x' = x ∧ y' = y)) = true)
    (h' : ∀ k, k < zetaBpp s.surf.zetaFmt → ∀ x', x' < 4 → ∀ y', y' < 2 → ∀ k', k' < colorBpp s.surf.colorFmt →
      zetaAddr s.surf x y + BitVec.ofNat 32 k ≠ colorAddr s.surf x' y' + BitVec.ofNat 32 k') :
    zetaAlone s d x y := by
  rintro a ⟨-, -, k, hk, rfl⟩ x' y' ⟨-, h1, -, h2, -⟩
  exact ⟨fun ⟨_, _, k', hk', e⟩ => by simpa [e] using h k hk x' (by omega) y' (by omega) k' hk',
    fun ⟨_, _, k', hk', e⟩ => h' k hk x' (by omega) y' (by omega) k' hk' e⟩

/-- The last pixel of the 4 by 2 rectangle, on a Z24S8 and on a Z16 buffer. -/
theorem witness_ClearWritesPixel :
    clearsPixel (target 8 2 16) 3 1 ∧ wordBits 0xF3 7 4 ≠ 0 ∧ wordBits 0xF3 1 0 ≠ 0 ∧ colorOk (target 8 2 16).surf = true ∧
    zetaOk (target 8 2 16).surf = true ∧ (target 8 2 16).surf.zetaFmt = 2 ∧
    inRange (who (target 8 2 16)) (colorBpp 8) (colorAddr (target 8 2 16).surf 3 1) ∧ colorAlone (target 8 2 16) 0xF3 3 1 ∧
    inRange (who (target 8 2 16)) (zetaBpp 2) (zetaAddr (target 8 2 16).surf 3 1) ∧ zetaAlone (target 8 2 16) 0xF3 3 1 ∧
    clearsPixel (target 8 1 16) 0 0 ∧ zetaOk (target 8 1 16).surf = true ∧ (target 8 1 16).surf.zetaFmt = 1 ∧
    inRange (who (target 8 1 16)) (zetaBpp 1) (zetaAddr (target 8 1 16).surf 0 0) ∧ zetaAlone (target 8 1 16) 0x01 0 0 := by
  unfold inRange clearsPixel
  exact ⟨by decide +kernel, by decide, by decide, by decide +kernel, by decide +kernel, rfl, by decide +kernel,
    colorAlone_of _ _ _ _ rfl rfl (by decide +kernel) (by decide +kernel), by decide +kernel, zetaAlone_of _ _ _ _ rfl rfl (by decide +kernel) (by decide +kernel),
    by decide +kernel, by decide +kernel, rfl, by decide +kernel, zetaAlone_of _ _ _ _ rfl rfl (by decide +kernel) (by decide +kernel)⟩

/-- Every byte of that clear lies below the end of memory. -/
theorem witness_ClearWritesPixel_silent :
    ∀ a, clearedByte (target 8 2 16) 0xF3 a → a.toNat < (target 8 2 16).par.physSize := by
  have h : ∀ x, x < 4 → ∀ y, y < 2 → ∀ k, k < 4 →
      (colorAddr (target 8 2 16).surf x y + BitVec.ofNat 32 k).toNat < (target 8 2 16).par.physSize ∧
      (zetaAddr (target 8 2 16).surf x y + BitVec.ofNat 32 k).toNat < (target 8 2 16).par.physSize := by decide +kernel
  have hX : (target 8 2 16).clear.x1.toNat = 3 := rfl
  have hY : (target 8 2 16).clear.y1.toNat = 1 := rfl
  rintro a ⟨x, y, ⟨-, h1, -, h2, -⟩, ⟨-, -, k, hk, rfl⟩ | ⟨-, -, k, hk, rfl⟩⟩
  · exact (h x (by omega) y (by omega) k hk).1
  · exact (h x (by omega) y (by omega) k hk).2

theorem witness_StoresStayInRenderTarget :
    (∃ t, exec (.alphaFunc 7) .reset = .next t) ∧ drawsPixels (.alphaFunc 7) = false ∧
    (∃ t, exec (.vertex4f3 fOne) triangleState = .next t) ∧ drawsPixels (.vertex4f3 fOne) = true ∧
    ¬ targetByte { triangleState.surf with clipW := 0 } 0 := by
  refine ⟨next_of_isNext (by decide +kernel), rfl, next_of_isNext (by decide +kernel), rfl, ?_⟩
  rintro ⟨x, y, h, -⟩
  simp [inClip, triangleState] at h

/-- The one pixel of `triangleState` with the pixel state `p`. -/
def drawWith (p : PixelState) : Draw := { drawOf triangleState with pix := p }

/-- The same with a Z16 buffer. -/
def drawZ16 (p : PixelState) : Draw := { drawWith p with surf := { triangleState.surf with zetaFmt := 1 } }

/-- The alpha test LESS on equal values; the depth test LESS on the stored 0 with the stencil test off. -/
theorem witness_FailedPixelWrites_keeps :
    ({ PixelState.init with alphaTestEn := true, alphaFunc := 0x201, alphaRef := 0x80 } : PixelState).alphaTestEn = true ∧
    compare .init 0x201 (wordBits 0x80FFFFFF 31 24).toNat (0x80#8).toNat = .ok false ∧
    compare .init 0x203 (wordBits 0x80FFFFFF 31 24).toNat (0x80#8).toNat = .ok true ∧
    (drawWith { PixelState.init with depthTestEn := true }).pix.alphaTestEn = false ∧
    (drawWith { PixelState.init with depthTestEn := true }).pix.stencilTestEn = false ∧
    zetaOk (drawWith { PixelState.init with depthTestEn := true }).surf = true ∧
    compare .init (drawWith { PixelState.init with depthTestEn := true }).pix.depthFunc (depthOf 2 0)
      (unpackZeta 2 (zetaWord (drawWith { PixelState.init with depthTestEn := true }) 0 0 ⟨[], []⟩)).1 = .ok false := by decide +kernel

theorem witness_PassedPixelWritesBack_plain :
    inClip (drawWith .init).surf 0 0 = true ∧ colorOk (drawWith .init).surf = true ∧ (drawWith .init).pix.alphaTestEn = false ∧
    (drawWith .init).pix.depthTestEn = false ∧ (drawWith .init).pix.stencilTestEn = false ∧ (drawWith .init).pix.blendEn = false ∧
    (drawWith .init).pix.logicOpEn = false ∧
    inRange (drawWith .init).who (colorBpp (drawWith .init).surf.colorFmt) (colorAddr (drawWith .init).surf 0 0) := by
  unfold inRange; decide +kernel

/-- The stencil test NEVER passes, INCR on fail. -/
def neverStencil : PixelState := { PixelState.init with stencilTestEn := true, stencilFunc := 0x200, stencilOpFail := 0x1E02 }

/-- The stencil test ALWAYS passes and the depth test NEVER does, DECR_WRAP on zfail. -/
def neverDepth : PixelState :=
  { PixelState.init with stencilTestEn := true, stencilFunc := 0x207, stencilOpZfail := 0x8508, depthTestEn := true, depthFunc := 0x200 }

theorem witness_FailedPixelWrites_stores :
    inClip (drawWith neverStencil).surf 0 0 = true ∧ colorOk (drawWith neverStencil).surf = true ∧
    zetaOk (drawWith neverStencil).surf = true ∧ (drawWith neverStencil).surf.zetaFmt = 2 ∧ neverStencil.alphaTestEn = false ∧
    neverStencil.stencilTestEn = true ∧ compare .init neverStencil.stencilFunc 0 0 = .ok false ∧
    stencilRaw .init neverStencil.stencilOpFail neverStencil.stencilRef (wordBits (zetaWord (drawWith neverStencil) 0 0 ⟨[], []⟩) 7 0) = .ok 1 ∧
    inRange (drawWith neverStencil).who 4 (zetaAddr (drawWith neverStencil).surf 0 0) ∧
    compare .init neverDepth.stencilFunc 0 0 = .ok true ∧ compare .init neverDepth.depthFunc (depthOf 2 fOne) 0 = .ok false ∧
    stencilRaw .init neverDepth.stencilOpZfail neverDepth.stencilRef (wordBits (zetaWord (drawWith neverDepth) 0 0 ⟨[], []⟩) 7 0) = .ok 255 ∧
    zetaOk (drawZ16 neverStencil).surf = true ∧ (drawZ16 neverStencil).surf.zetaFmt = 1 := by
  unfold inRange; decide +kernel

/-- Depth LEQUAL of 16777215 on 0 stored fails, of 0 passes; stencil EQUAL with INCR on pass; FUNC_ADD of SRC_ALPHA and ZERO. -/
def passing : PixelState :=
  { PixelState.init with
    depthTestEn := true, depthFunc := 0x203, stencilTestEn := true, stencilFunc := 0x202, stencilOpZpass := 0x1E02
    blendEn := true, blendSfactor := 0x0302 }

theorem witness_PassedPixelWritesBack :
    inClip (drawWith passing).surf 0 0 = true ∧ colorOk (drawWith passing).surf = true ∧
    testsPass (drawWith passing) 0 0x80FFFFFF 0 0 ∧
    unpackZeta 2 (zetaWord (drawWith passing) 0 0 ⟨[], []⟩) = (0, 0) ∧
    shadesTo .init passing 0x80FFFFFF (unpackColor 8 (colorWord (drawWith passing) 0 0 ⟨[], []⟩)) 0x40808080 ∧
    inRange (drawWith passing).who (colorBpp 8) (colorAddr (drawWith passing).surf 0 0) ∧
    (zetaOk (drawWith passing).surf && (passing.depthTestEn || passing.stencilTestEn)) = true ∧
    inRange (drawWith passing).who (zetaBpp 2) (zetaAddr (drawWith passing).surf 0 0) ∧
    stencilRaw .init passing.stencilOpZpass passing.stencilRef 0 = .ok 1 := by
  unfold inRange testsPass shadesTo; decide +kernel

theorem witness_PassedPixelWritesBack_apart :
    ∀ a, ¬ (inBytes a (colorAddr (drawWith passing).surf 0 0) (colorBpp 8) ∧ inBytes a (zetaAddr (drawWith passing).surf 0 0) (zetaBpp 2)) := by
  have h : ∀ k, k < 4 → ∀ k', k' < 4 →
      colorAddr (drawWith passing).surf 0 0 + BitVec.ofNat 32 k ≠ zetaAddr (drawWith passing).surf 0 0 + BitVec.ofNat 32 k' := by
    decide +kernel
  rintro a ⟨⟨k, hk, rfl⟩, k', hk', e⟩
  exact h k hk k' hk' e

theorem witness_BlendEquations :
    [PixelState.init.blendEq, 0x800A, 0x800B, 0x8007, 0x8008, 0x8009].map (fun w => Enums.init.equation.lookup w) =
      [some EquationFn.add, some .subtract, some .reverseSubtract, some .min, some .max, none] ∧
    [PixelState.init.blendSfactor, PixelState.init.blendDfactor, 0x0308, 0x8004, 0x0309].map (fun w => Enums.init.factor.lookup w) =
      [some FactorFn.one, some .zero, some .srcAlphaSaturate, some .oneMinusConstantAlpha, none] ∧
    isMember Enums.init.equation 0x800B = true := by decide +kernel

theorem witness_ComparisonsAndOperations :
    Enums.init.compare.lookup 0x200 = some .never ∧ Enums.init.compare.lookup 0x208 = none ∧ otherParams.enums.compare.lookup 7 = some .always ∧
    Enums.init.logic.lookup 0x150F = some .set ∧ Enums.init.logic.lookup 0x1510 = none ∧ Enums.init.stencil.lookup 0x8508 = some .decrWrap ∧
    Enums.init.stencil.lookup 0x8509 = none ∧ ((0x207#32).toNat = 0x200 + 7 ∧ (0x150F#32).toNat = 0x1500 + 15) := by decide +kernel

/-- The two reference colours equal, rising and falling; code 3 for texel 15 and code 0 for texel 0. -/
theorem witness_BlockTexels :
    (memRead q64 2 0x100 (memWrite q64 8 0x100 0xC0000000F800F800 ⟨[], []⟩)).1 =
      (memRead q64 2 0x102 (memWrite q64 8 0x100 0xC0000000F800F800 ⟨[], []⟩)).1 ∧
    (memRead q64 2 0x100 (memWrite q64 8 0x100 0xC0000000F8000001 ⟨[], []⟩)).1 <
      (memRead q64 2 0x102 (memWrite q64 8 0x100 0xC0000000F8000001 ⟨[], []⟩)).1 ∧
    (memRead q64 4 0x104 (memWrite q64 8 0x100 0xC0000000F8000001 ⟨[], []⟩)).1 / 4 ^ 15 % 4 = 3 ∧
    (memRead q64 4 0x104 (memWrite q64 8 0x100 0xC0000000F8000001 ⟨[], []⟩)).1 / 4 ^ 0 % 4 ≠ 3 ∧
    (memRead q64 2 0x102 (memWrite q64 8 0x100 0xC00000000001F800 ⟨[], []⟩)).1 <
      (memRead q64 2 0x100 (memWrite q64 8 0x100 0xC00000000001F800 ⟨[], []⟩)).1 := by decide +kernel

/-- Coordinates of every class: a NaN, an infinity, numbers beyond 32 bits on either side, and between. -/
theorem witness_TextureSampling_coordinates :
    fIsNaN 0x7FC00000 = true ∧ fIsInf 0xFF800000 = true ∧ (fIsFinite 0x4F000000 = true ∧ 2 ^ 31 * 2 ^ 149 ≤ fFix 0x4F000000) ∧
    (fIsFinite 0xCF000001 = true ∧ fFix 0xCF000001 < -2 ^ 31 * 2 ^ 149) ∧
    (fIsFinite 0xCF000000 = true ∧ -2 ^ 31 * 2 ^ 149 ≤ fFix 0xCF000000 ∧ fFix 0xCF000000 < 2 ^ 31 * 2 ^ 149) := by decide +kernel

/-- A coordinate below 0 and one past the end of a unit of 3 by 2, of 4 by 4, and of 1 by 1; units of no width; formats of no row. -/
theorem witness_TextureSampling :
    (2 < 3 ∧ 1 < 2 ∧ ((-1 : Int) - (2 : Nat)) % (3 : Nat) = 0 ∧ ((5 : Int) - (1 : Nat)) % (2 : Nat) = 0) ∧
    (3 < 2 ^ (2#4).toNat ∧ 0 < 2 ^ (2#4).toNat ∧ ((-1 : Int) - (3 : Nat)) % ((2 ^ (2#4).toNat : Nat) : Int) = 0 ∧
      ((4 : Int) - (0 : Nat)) % ((2 ^ (2#4).toNat : Nat) : Int) = 0) ∧
    (0 < 2 ^ (0#4).toNat ∧ ((7 : Int) - (0 : Nat)) % ((2 ^ (0#4).toNat : Nat) : Int) = 0) ∧ TexUnit.init.rw.toNat = 0 ∧
    ∀ f ∈ [0x00#8, 0x01, 0x03, 0x08, 0x0D, 0x13, 0x1C, 0x1F, 0xFF],
      f ∉ [0x02#8, 0x04, 0x05, 0x06, 0x07, 0x0C, 0x0E, 0x0F, 0x10, 0x11, 0x12, 0x1D, 0x1E] := by decide +kernel

/-- The registers at the start of a pixel whose primary colour is (1, 1, 0, 1). -/
def startRegs : CmbRegs := cmbInit ⟨fOne, fOne, 0, fOne⟩ 0 0 0 0

/-- Stage words that read the primary colour and the two constants, write spare0, mux, and use the dot product. -/
def dotStage : CmbStage :=
  { cicw := 0x04010204, aicw := 0x14110204, cocw := 0x00002C00 ||| 0x00004000, aocw := 0x00020C00, fac0 := 0xFF800000, fac1 := 0x01020304 }

theorem witness_GeneralCombinerStage :
    startRegs.final = false ∧ cmbReg startRegs ((0x04#8).extractLsb' 0 4) = .ok startRegs.primary ∧
    (wordBits dotStage.cocw 17 15).toNat ≠ 5 ∧ (wordBits dotStage.cocw 17 15).toNat ≠ 7 ∧ (wordBits dotStage.aocw 17 15).toNat ≠ 5 ∧
    (wordBits dotStage.aocw 17 15).toNat ≠ 7 ∧
    (∀ k, k < 4 → ∃ v, cmbInputRgb { startRegs with color0 := from8v 0xFF800000, color1 := from8v 0x01020304 } (byteOf dotStage.cicw k) = .ok v) ∧
    (∀ k, k < 4 → ∃ v, cmbInputAlpha { startRegs with color0 := from8v 0xFF800000, color1 := from8v 0x01020304 } (byteOf dotStage.aicw k) = .ok v) ∧
    ((13#4).toNat ≤ 13 ∧ 8 ≤ (8#4).toNat) ∧ ¬ ((3#4) = 4 ∨ (3#4) = 5 ∨ 8 ≤ (3#4).toNat ∧ (3#4).toNat ≤ 13) ∧
    ¬ ((14#4) = 4 ∨ (14#4) = 5 ∨ 8 ≤ (14#4).toNat ∧ (14#4).toNat ≤ 13) := by
  refine ⟨rfl, rfl, by decide, by decide, by decide, by decide, ?_, ?_, by decide, by decide, by decide⟩
  · intro k hk
    rcases k with _ | _ | _ | _ | k
    · exact ⟨_, rfl⟩
    · exact ⟨_, rfl⟩
    · exact ⟨_, rfl⟩
    · exact ⟨_, rfl⟩
    · omega
  · intro k hk
    rcases k with _ | _ | _ | _ | k
    · exact ⟨_, rfl⟩
    · exact ⟨_, rfl⟩
    · exact ⟨_, rfl⟩
    · exact ⟨_, rfl⟩
    · omega

theorem witness_CombineAndFinalStage_passThrough :
    { State.reset.cmb with fcw0 := 0x04200000 }.stages = 0 ∧ stageCode (byteOf State.reset.cmb.fcw1 3) = true ∧
    stageCode (byteOf State.reset.cmb.fcw1 2) = true ∧ finalCode (byteOf State.reset.cmb.fcw1 1) = true ∧
    (0x3F800000#32).toNat ≤ 0x3F800000 ∧ (0#32).toNat ≤ 0x3F800000 := by decide +kernel

/-- One stage that runs, and a final combiner that reads codes 4, 14, 15 and 12 and, as G, the alpha of the primary colour. -/
def readsAll : Combiner := ⟨1, [(0, dotStage)], 0x040E0F0C, 0x04041400, 0xFF102030, 0x40506070⟩

theorem witness_CombineAndFinalStage :
    readsAll.stages.toNat = 1 ∧ (∃ r, generalStage q64 (stageAt readsAll 0) (startRegs, ⟨[], []⟩) = .ok r) ∧
    (∃ v, finalStage readsAll startRegs = .ok v) ∧
    (∃ e, cmbInputRgb (finalRegs readsAll startRegs) (byteOf readsAll.fcw1 3) = .ok e) ∧
    (∃ f, cmbInputRgb (finalRegs readsAll startRegs) (byteOf readsAll.fcw1 2) = .ok f) ∧
    (∀ k, k < 4 → ∃ v, cmbInputRgb { finalRegs readsAll startRegs with final := true } (byteOf readsAll.fcw0 k) = .ok v) ∧
    ∃ g, cmbInputAlpha { finalRegs readsAll startRegs with final := true } (byteOf readsAll.fcw1 1) = .ok g := by
  refine ⟨rfl, ⟨_, rfl⟩, ⟨_, rfl⟩, ⟨_, rfl⟩, ⟨_, rfl⟩, ?_, ⟨_, rfl⟩⟩
  intro k hk
  rcases k with _ | _ | _ | _ | k
  · exact ⟨_, rfl⟩
  · exact ⟨_, rfl⟩
  · exact ⟨_, rfl⟩
  · exact ⟨_, rfl⟩
  · omega

theorem witness_VectorInstructions : ∀ vop : BitVec 4, vop < 14 → vpLegal vop 0 vpPlain = true ∧ vpLegal vop 7 vpPlain = true := by
  decide +kernel

theorem witness_ScalarInstructions :
    (∀ sop : BitVec 4, sop < 8 → vpLegal 0 sop vpPlain = true ∧ vpLegal 13 sop vpPlain = true) ∧
    fIsFinite 0xFF7FFFFF = true ∧ fIsZero 0x80000000 = true ∧ fIsInf 0xFF800000 = true ∧ fIsZero 0x00000001 = false ∧
    fIsNaN 0x7F800000 = false ∧ fIsNaN 0xFFC00000 = true ∧ fLt 0 0x00000001 = true ∧ fLt 0 0 = false ∧
    State.reset.par.numerics.rcc.lookup fOne = none ∧ otherParams.numerics.rcc.lookup fOne = some 0x40000000 ∧
    otherParams.numerics.pow.lookup (fOne, fTwo) = some 0x40400000 ∧ otherParams.numerics.log2.lookup fOne = none := by decide +kernel

theorem witness_ReservedProgramInstructionsRefused :
    isProgramInstr (.vpMov 8 vpPlain) = true ∧ WellFormed (.vpMov 8 vpPlain) = false ∧ isProgramInstr (.vpSLit 13 vpPlain) = true ∧
    WellFormed (.vpSLit 13 vpPlain) = true := by decide +kernel

theorem witness_OperandAssembly : vpNoA.a.mux = 0 ∧ vpPlain.a.mux ≠ 0 ∧ vpOps.b.mux = 1 ∧ vpOps.a.mux = 2 := by decide

theorem witness_ProgramRunEnds :
    (programState 0).vp.ip.toNat ≤ 256 ∧ 257 ≤ (programState 0).vp.ip.toNat + 2 ∧ 2 ≤ 3 ∧
    257 ≤ { (programState 0).vp with ip := 256 }.ip.toNat + 1 := by decide +kernel

theorem witness_VertexPushStores : (15 : BitVec 4) ≠ 0 ∧ ((0 : BitVec 4) ≠ 0 ∨ (2 : BitVec 2) ≠ 3) ∧ ((1 : BitVec 4) ≠ 0 ∨ (3 : BitVec 2) ≠ 3) := by
  decide

theorem witness_FetchedAttributes :
    (∀ k : BitVec 2, k.toNat < (4#4).toNat) ∧ ¬ (3#2).toNat < (3#4).toNat ∧ (3#4).toNat ≤ 3 ∧ (7 ≤ (7#4).toNat ∧ 7 ≤ (15#4).toNat) ∧
    15 < 16 ∧ (slotAt ⟨[], [], 0⟩ 15).size = 0 := by decide

theorem witness_VertexPushEmits : drawReady .reset = true ∧ drawReady triangleState = true ∧ drawReady badAlphaFunc = false := by decide +kernel

/-- Program mode with the whole of instruction memory zero: NOP beside NOP, and under the combiner shader. -/
theorem witness_ArrayDrawsEmit :
    drawReady { triangleState with vp := { triangleState.vp with mode := true }, prim := { triangleState.prim with rsel := .combiner } } = true ∧
    drawReady reservedCombiner = false := by decide +kernel

/-- Slot 0 of F and size 3, slot 3 of UB_D3D and size 4: four words a vertex. -/
def inlineState (n : BitVec 7) : State :=
  { State.reset with va := ⟨[(0, ⟨0, 2, 3, 12⟩), (3, ⟨0, 0, 4, 4⟩)], [], n⟩ }

/-- Sixteen slots of F and size 4: 64 words a vertex. -/
def fullInlineState : State :=
  { State.reset with va := ⟨(List.range 16).map fun i => (i, ⟨0, 2, 4, 16⟩), [], 63⟩ }

theorem witness_InlineArrayWord :
    vaTotal State.reset.va = 0 ∧ (vaTotal (inlineState 0).va ≠ 0 ∧ (inlineState 0).va.ibufN.toNat + 1 ≠ vaTotal (inlineState 0).va) ∧
    ((inlineState 3).va.ibufN.toNat + 1 = vaTotal (inlineState 3).va ∧ drawReady (inlineState 3) = true) ∧
    (fullInlineState.va.ibufN.toNat < 64 ∧ fullInlineState.va.ibufN.toNat + 1 = vaTotal fullInlineState.va ∧
      drawReady fullInlineState = true) ∧
    (inlineState 63).va.ibufN.toNat < 64 := by decide +kernel

theorem witness_BeginEndPrimitive : (10 : Word) ≠ 0 ∧ (11 : Word) ≠ 0 ∧ (10 : Word).toNat ≤ 10 := by decide

theorem witness_AssembledTriangles : State.reset.prim.vcount = 0 ∧ [corner 0 0, corner fTwo 0].length < 2 ^ 32 := by decide +kernel

/-- A triangle with three, two, one and no vertices in front of 0.5; a vertex at 0.5 is behind. -/
theorem witness_ClipperPaths :
    [corner 0 0, corner 0 0, corner 0 0].countP (fun t => fLt 0x3F000000 t.w) = 3 ∧
    [corner 0 0, corner 0 0, TVertex.zero].countP (fun t => fLt 0x3F000000 t.w) = 2 ∧
    [corner 0 0, TVertex.zero, TVertex.zero].countP (fun t => fLt 0x3F000000 t.w) = 1 ∧
    [TVertex.zero, { TVertex.zero with w := 0x3F000000 }, TVertex.zero].countP (fun t => fLt 0x3F000000 t.w) = 0 ∧
    cut 0x3F000000 (corner 0 0) TVertex.zero ∈ clipPolygon 0x3F000000 (corner 0 0) TVertex.zero TVertex.zero := by decide +kernel

theorem witness_CoverageRule :
    fFix (corner 0 0).x ≠ fFix (corner fTwo 0).x ∧ fFix (corner 0 0).y ≠ fFix (corner 0 fTwo).y ∧
    edge (corner 0 0) (corner fTwo 0) (samplePoint 0) 0 = 0 := by decide +kernel

theorem witness_StepKeepsMemoryForm :
    memoryInv (ringState 0x00001001 .none) = true ∧ ∃ t, step (ringState 0x00001001 .none) = .next t :=
  ⟨by decide +kernel, next_of_isNext (by decide +kernel)⟩

/-- A step that draws: VERTEX4F(3) with the triangle of `triangleState` half stored. -/
theorem witness_StepKeepsInvariant :
    Inv (placeRingWord fOne (placeBurst 0x549 false) (placeBinding triangleState)) = true ∧
    ∃ t, step (placeRingWord fOne (placeBurst 0x549 false) (placeBinding triangleState)) = .next t :=
  ⟨by decide +kernel, next_of_isNext (by decide +kernel)⟩

end Sys2Proof.Tests
end

section
/-! PROOFS. The bytes of a memory access: the value and the diagnostics of a read, and what a read gives after a write (R13, R83, R84). -/

namespace Sys2Proof.Machine
open Sys2Proof

/-! ### Reads and writes of several bytes -/

/-- The byte `k + 1` places on is `k` places on from the next address. -/
theorem add_one_ofNat (a : Word) (k : Nat) : a + 1 + BitVec.ofNat 32 k = a + BitVec.ofNat 32 (k + 1) := by
  rw [BitVec.add_assoc, show (1 : Word) = BitVec.ofNat 32 1 from rfl, ← BitVec.ofNat_add, Nat.add_comm 1 k]

/-- Addresses less than the whole space apart differ. -/
theorem ne_add_ofNat (a : Word) {k : Nat} (h0 : 0 < k) (h : k < 2 ^ 32) : a ≠ a + BitVec.ofNat 32 k := by
  intro e
  have := congrArg BitVec.toNat e
  simp only [BitVec.toNat_add, BitVec.toNat_ofNat] at this
  omega

theorem byteOrZero_congr (q : Who) {b b' : Bus} (h : b'.mem = b.mem) (a : Word) : byteOrZero q b' a = byteOrZero q b a := by
  simp only [byteOrZero, h]

/-- The value of one byte read (R84). -/
theorem readByte_value (q : Who) (a : Word) (b : Bus) : (readByte q a b).1.toNat = byteOrZero q b a := by
  unfold byteOrZero
  split
  case isTrue h => rw [readByte_in b h]
  case isFalse h => rw [readByte_out b (by omega)]; rfl

@[simp] theorem readDiags_zero (q : Who) (a : Word) : readDiags q 0 a = [] := rfl

/-- The diagnostics of a read, first byte first. -/
theorem readDiags_succ (q : Who) (n : Nat) (a : Word) :
    readDiags q (n + 1) a = (if q.size ≤ a.toNat then [⟨.oorRead, q.ch, q.get⟩] else []) ++ readDiags q n (a + 1) := by
  have hrest : (fun k => decide (q.size ≤ (a + BitVec.ofNat 32 k).toNat)) ∘ Nat.succ =
      fun k => decide (q.size ≤ (a + 1 + BitVec.ofNat 32 k).toNat) := by
    funext k
    rw [add_one_ofNat]; rfl
  rw [readDiags, List.range_succ_eq_map, List.filter_cons, List.filter_map, hrest]
  by_cases h : q.size ≤ a.toNat <;> simp [h, readDiags, Function.comp_def]

/-- The bus after one byte is read (R84, R85). -/
theorem readByte_bus (q : Who) (a : Word) (b : Bus) :
    (readByte q a b).2 = { b with diag := b.diag ++ if q.size ≤ a.toNat then [⟨.oorRead, q.ch, q.get⟩] else [] } := by
  by_cases h : q.size ≤ a.toNat
  · rw [readByte_out b h, if_pos h]; rfl
  · rw [readByte_in b (by omega), if_neg h, List.append_nil]

/-- The value of a read is the little-endian sum of its bytes (R13, R84). -/
theorem memRead_value (q : Who) (n : Nat) (a : Word) (b : Bus) :
    (memRead q n a b).1 = ∑ k ∈ Finset.range n, byteOrZero q b (a + BitVec.ofNat 32 k) * 256 ^ k := by
  induction n generalizing a b with
  | zero => rfl
  | succ n ih =>
    have hmem := (readByte_readsOnly q a b).1
    rw [Finset.sum_range_succ', memRead]
    simp only [ih, readByte_value, byteOrZero_congr q hmem, add_one_ofNat, Finset.mul_sum, pow_succ', Nat.mul_left_comm 256]
    simp [Nat.add_comm]

/-- A read appends the diagnostics of its bytes out of range and changes nothing else (R84, R85). -/
theorem memRead_bus (q : Who) (n : Nat) (a : Word) (b : Bus) :
    (memRead q n a b).2 = { b with diag := b.diag ++ readDiags q n a } := by
  induction n generalizing a b with
  | zero => simp [memRead, readDiags]
  | succ n ih => rw [memRead]; simp only [ih, readByte_bus, readDiags_succ, List.append_assoc]

/-- A range without its first byte. -/
theorem inRange_succ {q : Who} {n : Nat} {a : Word} (h : inRange q (n + 1) a) : a.toNat < q.size ∧ inRange q n (a + 1) :=
  ⟨by simpa using h 0 (by omega), fun k hk => add_one_ofNat a k ▸ h (k + 1) (by omega)⟩

/-- A write in range raises nothing (R84). -/
theorem memWrite_diag (q : Who) (n : Nat) (a : Word) (v : Nat) (b : Bus) (h : inRange q n a) :
    (memWrite q n a v b).diag = b.diag := by
  induction n generalizing a v b with
  | zero => rfl
  | succ n ih =>
    obtain ⟨ha, hrest⟩ := inRange_succ h
    rw [memWrite, ih _ _ _ hrest, writeByte_in _ _ ha]

/-- What a read of the bytes just written gives (R13, R83). -/
theorem memRead_memWrite (q : Who) (n : Nat) (a : Word) (v : Nat) (b : Bus) (hn : n ≤ 2 ^ 32) (h : inRange q n a) :
    (memRead q n a (memWrite q n a v b)).1 = v % 256 ^ n := by
  induction n generalizing a v b with
  | zero => simp [memRead, Nat.mod_one]
  | succ n ih =>
    obtain ⟨ha, hrest⟩ := inRange_succ h
    have hfirst : memByte (memWrite q (n + 1) a v b).mem a = BitVec.ofNat 8 v := by
      rw [memWrite, memByte_memWrite_other, memByte_writeByte, if_pos ⟨rfl, ha⟩]
      exact fun k hk => add_one_ofNat a k ▸ ne_add_ofNat a (by omega) (by omega)
    have hlater : (memRead q n (a + 1) (memWrite q (n + 1) a v b)).1 = v / 256 % 256 ^ n :=
      ih (a + 1) (v / 256) _ (by omega) hrest
    rw [memRead, readByte_in _ ha]
    simp only [hfirst, hlater, BitVec.toNat_ofNat]
    rw [pow_succ' 256 n, Nat.mod_mul]

end Sys2Proof.Machine

section
open Sys2Proof Sys2Proof.Machine

/-- Settles O21: by induction on the number of bytes, for the value and for the bus. -/
theorem multiByteRead : Obligations.MultiByteRead := fun q n a b => ⟨memRead_value q n a b, memRead_bus q n a b⟩

/-- Settles O22: the bytes are at most 2^32, so no byte of the range is written twice. -/
theorem memoryReadAfterWrite : Obligations.MemoryReadAfterWrite := fun q n a v b hn h =>
  ⟨memRead_memWrite q n a v b hn h, memWrite_diag q n a v b h,
    fun c hc => memByte_memWrite_other q n a c v b fun k hk he => hc ⟨k, hk, he⟩⟩

end
end

section
/-! PROOFS. The word that the puller fetches, as the bytes that the decoder takes, and what the step does with it (R160,
R167, R170, R671). -/

namespace Sys2Proof.Machine
open Sys2Proof

/-! ### The fetched word and its bytes (R160, R99) -/

theorem byteOrZero_lt (q : Who) (b : Bus) (a : Word) : byteOrZero q b a < 256 := by
  unfold byteOrZero
  split
  · exact (memByte b.mem a).isLt
  · decide

/-- The value of four bytes in address order (R83). -/
theorem wordOfBytes_toNat (b0 b1 b2 b3 : Byte) :
    (wordOfBytes b0 b1 b2 b3).toNat = b0.toNat + b1.toNat * 256 + b2.toNat * 256 ^ 2 + b3.toNat * 256 ^ 3 := by
  have h0 := b0.isLt; have h1 := b1.isLt; have h2 := b2.isLt
  rw [wordOfBytes, BitVec.toNat_append, BitVec.toNat_append, BitVec.toNat_append, ← Nat.shiftLeft_add_eq_or_of_lt h0,
    ← Nat.shiftLeft_add_eq_or_of_lt h1, ← Nat.shiftLeft_add_eq_or_of_lt h2]
  omega

/-- The word that the puller fetches is the four bytes at its place in the ring (R99, R160). -/
theorem wordsOfBytes_ringBytes (s : State) : wordsOfBytes (ringBytes s s.cur) = some [(fetchWord s).1] := by
  have hw : (fetchWord s).1 = BitVec.ofNat 32 (memRead (who s) 4 (fetchAddr s s.cur) s.bus).1 := rfl
  have hlt (k : Nat) := byteOrZero_lt (who s) s.bus (fetchAddr s s.cur + BitVec.ofNat 32 k)
  have h0 := hlt 0; have h1 := hlt 1; have h2 := hlt 2; have h3 := hlt 3
  have hb : ringBytes s s.cur = (List.range 4).map fun k =>
    BitVec.ofNat 8 (byteOrZero (who s) s.bus (fetchAddr s s.cur + BitVec.ofNat 32 k)) := rfl
  rw [hb, hw, memRead_value]
  simp only [List.range, List.range.loop, List.map, wordsOfBytes, Option.map]
  refine congrArg some (congrArg (· :: []) (BitVec.eq_of_toNat_eq ?_))
  rw [wordOfBytes_toNat]
  simp only [BitVec.toNat_ofNat, Finset.sum_range_succ, Finset.sum_range_zero]
  omega

/-- The ring bytes of a channel decode as the word that its puller fetches. -/
theorem decodeBytesBy_ringBytes (t : Tables) (slot : Slot) (s : State) (ch : BitVec 5) (rest : List Agent) :
    decodeBytesBy t slot (ringBytes s ch) = decodeBy t slot [(fetchWord { s with agenda := rest, cur := ch }).1] := by
  have h := wordsOfBytes_ringBytes { s with agenda := rest, cur := ch }
  rw [decodeBytesBy, show ringBytes s ch = ringBytes { s with agenda := rest, cur := ch } ch from rfl, h]

/-- The fetch moves `GET` of the current channel alone (R160). -/
@[simp] theorem curChan_fetchWord (s : State) : curChan (fetchWord s).2 = { curChan s with get := (curChan s).get + 4 } :=
  curChan_setGet ..

/-! ### Which puller moves (R671) -/

/-- The first move of the agenda, where it is the puller of an enabled channel (R160). -/
theorem step_puller {s : State} {ch : BitVec 5} {rest : List Agent} (ha : s.agenda = .puller ch :: rest) (he : enabled s ch = true) :
    step s = processWord (fetchWord { s with agenda := rest, cur := ch }).1 (fetchWord { s with agenda := rest, cur := ch }).2 := by
  have he' : enabled { s with agenda := rest } ch = true := he
  rw [step, cycle, ha]
  simp only [agentStep, pullerStep, if_pos he']

/-- The lowest-numbered enabled channel is the one that an empty agenda takes. -/
theorem firstEnabled_eq {s : State} {ch : BitVec 5} (he : enabled s ch = true) (hlow : ∀ c : BitVec 5, c < ch → enabled s c = false) :
    firstEnabled s = some ch := by
  have hfind : (List.range 32).find? (fun k => enabled s (BitVec.ofNat 5 k)) = some ch.toNat := by
    rw [List.find?_range_eq_some]
    refine ⟨by simpa using he, List.mem_range.mpr ch.isLt, fun k hk => ?_⟩
    rw [hlow _ (by have := ch.isLt; simp [BitVec.lt_def]; omega)]; rfl
  rw [firstEnabled, List.find?_map, Function.comp_def, hfind, Option.map_some, BitVec.ofNat_toNat, BitVec.setWidth_eq]

/-! ### What a fetched word is (R160) -/

section processWord
variable {s : State} (w : Word)

theorem processWord_command (hl : (curChan s).burst.lpend = false) (hc : (curChan s).burst.count = 0) :
    processWord w s = exec (decodeCommandBy s.par.tables.cmdDecode w) s := by
  simp [processWord, hl, hc]

theorem processWord_bind (hl : (curChan s).burst.lpend = false) (hc : ¬ (curChan s).burst.count = 0)
    (hb : (curChan s).burst.bind = true) : processWord w s = exec (.bindObject w) s := by
  simp only [processWord, hl, hb, if_neg hc, if_true, Bool.false_eq_true, if_false]

theorem processWord_data (hl : (curChan s).burst.lpend = false) (hc : ¬ (curChan s).burst.count = 0)
    (hb : (curChan s).burst.bind = false) : processWord w s = dataWord w s := by
  simp only [processWord, hl, hb, if_neg hc, Bool.false_eq_true, if_false]

end processWord

/-- A data word for a method of the map, on a subchannel of the 3D class (R167, R170). -/
theorem dataWord_method {d : Word} {s : State} {i : Instr} (hcls : (subAt s s.cur (curChan s).burst.subc).cls = s.par.kelvinClass)
    (hi : decodeMethodBy s.par.tables.methodMap (curChan s).burst.mthd d = some i) :
    dataWord d s =
      Run.andThen (exec i (s.setReg s.cur (curChan s).burst.subc (curChan s).burst.mthd d)) fun t => .next (advanceBurst t) := by
  have hw : methodWrite d s = exec i (s.setReg s.cur (curChan s).burst.subc (curChan s).burst.mthd d) := by
    unfold methodWrite
    dsimp only
    rw [if_pos (by exact hcls)]
    simp only [State.setReg_par, hi]
  rw [dataWord, hw]

end Sys2Proof.Machine

section
open Sys2Proof Sys2Proof.Machine

/-- Settles O10: the word fetched is the four ring bytes, so what `processWord` runs is what they decode to in their slot. -/
theorem stepRunsDecodedInstruction : Obligations.StepRunsDecodedInstruction := by
  refine ⟨fun s ch rest i ha he => ?agenda, fun s ch ha he hlow => ?empty⟩
  case agenda =>
    have hburst : (curChan (fetchWord { s with agenda := rest, cur := ch }).2).burst = (chanAt s ch).burst := by
      rw [curChan_fetchWord]; rfl
    simp only [step_puller ha he, decodeBytesBy_ringBytes _ _ s ch rest, decodeBy_command, decodeBy_bind, decodeBy_method]
    refine ⟨fun hc hl hi => ?command, fun hc hl hb hi => ?bind, fun hc hl hb hcls hi => ?method⟩
    case command =>
      rw [processWord_command _ (hburst ▸ hl) (hburst ▸ hc)]
      exact congrArg (exec · _) (Except.ok.inj hi)
    case bind =>
      rw [processWord_bind _ (hburst ▸ hl) (hburst ▸ hc) (hburst ▸ hb)]
      exact congrArg (exec · _) (Except.ok.inj hi)
    case method =>
      rw [processWord_data _ (hburst ▸ hl) (hburst ▸ hc) (hburst ▸ hb), dataWord_method (hburst ▸ hcls) (hburst ▸ hi), hburst]
      rfl
  case empty =>
    have hstep : step { s with agenda := [.puller ch] } = pullerStep ch { s with agenda := [] } := rfl
    rw [hstep, step, cycle, ha]
    simp only [firstEnabled_eq he hlow, ← ha]

end
end

section
/-! PROOFS. What each state operation, each instruction and each move of an agent leaves of the fields that only the host writes
(R10, R32, R58, R625). -/

namespace Sys2Proof.Machine
open Sys2Proof

/-! ### What an instruction outside the puller changes -/

/-- Everything but the fields of the rendering pipeline stays: surface, clear and pixel state, vertex input, transform, textures,
combiners, memory and the log. -/
def PipelineOnly (s t : State) : Prop :=
  t = { s with
    surf := t.surf, clear := t.clear, pix := t.pix, va := t.va, pvtx := t.pvtx, prim := t.prim, xf := t.xf, vp := t.vp, tex := t.tex
    cmb := t.cmb, bus := t.bus }

/-- The instruction works on channels, bindings or interrupts: the command words, the bind data word and the two methods that wait. -/
def isPullerInstr : Instr → Bool
  | .jump _ | .call _ | .increasing _ _ _ | .nonincreasing _ _ _ | .longNonincreasing _ _ | .ret | .oldJump _ | .sliConditional _
  | .invalid _ | .bindObject _ | .noOperation _ | .waitForVblank _ => true
  | _ => false

theorem PipelineOnly.trans {s t u : State} (h : PipelineOnly s t) (h' : PipelineOnly t u) : PipelineOnly s u := by
  unfold PipelineOnly at *
  rw [h', h]

theorem emit_pipelineOnly {vtx : Bank Vec4} {s t : State} (h : emit vtx s = .ok t) : PipelineOnly s t := by
  rw [emit_frame vtx s h]; rfl

/-- The outcome of a meaning changes the pipeline alone. -/
def RunsPipelineOnly (s : State) (r : Run) : Prop := ∀ t, r = .next t → PipelineOnly s t

theorem runsPipelineOnly_next {s t : State} (h : PipelineOnly s t) : RunsPipelineOnly s (.next t) := by
  rintro _ ⟨⟩; exact h

theorem runsPipelineOnly_ofExcept {s : State} {r : Except Refusal State} (h : ∀ t, r = .ok t → PipelineOnly s t) :
    RunsPipelineOnly s (Run.ofExcept r) := fun t ht => h t (ofExcept_next ht)

theorem emitWhen_pipelineOnly {c : Bool} {s u : State} (h : PipelineOnly s u) : RunsPipelineOnly s (emitWhen c u) := by
  unfold emitWhen
  split
  · exact runsPipelineOnly_ofExcept fun t ht => h.trans (emit_pipelineOnly ht)
  · exact runsPipelineOnly_next h

/-- The bus is the pipeline's. -/
theorem pipelineOnly_bus (s : State) (b : Bus) : PipelineOnly s { s with bus := b } := rfl

theorem emitIndexed_pipelineOnly {n : Word} {s t : State} (h : emitIndexed n s = .ok t) : PipelineOnly s t :=
  (pipelineOnly_bus s _).trans (emit_pipelineOnly h)

theorem emitRange_pipelineOnly {start : Word} {count : Nat} {s t : State} (h : emitRange start count s = .ok t) : PipelineOnly s t := by
  induction count generalizing start s with
  | zero => cases h; rfl
  | succ count ih =>
    obtain ⟨u, hu, h⟩ := except_bind_ok h
    exact (emitIndexed_pipelineOnly hu).trans (ih h)

theorem emitInline_pipelineOnly {s t : State} (h : emitInline s = .ok t) : PipelineOnly s t := by
  obtain ⟨u, hu, rfl⟩ := except_map_ok h
  have hemit := (pipelineOnly_bus s _).trans (emit_pipelineOnly hu)
  exact hemit.trans rfl

theorem runInstr_pipelineOnly (vop sop : BitVec 4) (f : VpFields) (s : State) : RunsPipelineOnly s (runInstr vop sop f s) := by
  refine runsPipelineOnly_ofExcept fun t ht => ?_
  obtain ⟨r, _, rfl⟩ := except_map_ok ht
  rfl

/-- The pipeline side of a test that only chooses between two states. -/
theorem pipelineOnly_ite {c : Prop} [Decidable c] {s t u : State} (ht : PipelineOnly s t) (hu : PipelineOnly s u) :
    PipelineOnly s (if c then t else u) := by
  split
  · exact ht
  · exact hu

theorem runsPipelineOnly_ite {c : Prop} [Decidable c] {s : State} {r q : Run} (hr : RunsPipelineOnly s r) (hq : RunsPipelineOnly s q) :
    RunsPipelineOnly s (if c then r else q) := by
  split
  · exact hr
  · exact hq

theorem execInlineArray_pipelineOnly (d : Word) (s : State) : RunsPipelineOnly s (execInlineArray d s) := by
  have hpush : PipelineOnly s { s with va := inlinePush s.va d } := rfl
  unfold execInlineArray
  exact runsPipelineOnly_ite (runsPipelineOnly_next rfl)
    (runsPipelineOnly_ite (runsPipelineOnly_ofExcept fun t ht => hpush.trans (emitInline_pipelineOnly ht))
      (runsPipelineOnly_next hpush))

/-- Every other method and every vertex-program instruction changes the pipeline alone. -/
theorem exec_pipelineOnly (i : Instr) (s : State) (hi : isPullerInstr i = false) : RunsPipelineOnly s (exec i s) := by
  cases i with
  | jump | call | increasing | nonincreasing | longNonincreasing | ret | oldJump | sliConditional | invalid | bindObject | noOperation
  | waitForVblank => cases hi
  | combinerControl => exact runsPipelineOnly_next (pipelineOnly_ite rfl rfl)
  | beginEnd => exact runsPipelineOnly_ite (runsPipelineOnly_next rfl) (runsPipelineOnly_next (pipelineOnly_ite rfl rfl))
  | specularFogFactor | transformConstant => exact runsPipelineOnly_ite (runsPipelineOnly_next rfl) (runsPipelineOnly_next rfl)
  | vertex3f2 | vertex4f3 => exact emitWhen_pipelineOnly (c := true) rfl
  | vertexData4fM | vertexData2s | vertexData4ub => exact emitWhen_pipelineOnly rfl
  | vertexData2fM | vertexData4sM => exact runsPipelineOnly_ite (runsPipelineOnly_next rfl) (emitWhen_pipelineOnly rfl)
  | arrayElement16 =>
    refine runsPipelineOnly_ofExcept fun t ht => ?_
    obtain ⟨u, hu, ht⟩ := except_bind_ok ht
    exact (emitIndexed_pipelineOnly hu).trans (emitIndexed_pipelineOnly ht)
  | arrayElement32 => exact runsPipelineOnly_ofExcept fun t ht => emitIndexed_pipelineOnly ht
  | drawArrays => exact runsPipelineOnly_ofExcept fun t ht => emitRange_pipelineOnly ht
  | inlineArray => exact execInlineArray_pipelineOnly _ s
  | vpNop | vpMov | vpMul | vpAdd | vpMad | vpDp3 | vpDph | vpDp4 | vpDst | vpMin | vpMax | vpSlt | vpSge | vpArl
  | vpSNop | vpSImv | vpSRcp | vpSRcc | vpSRsq | vpSExp | vpSLog | vpSLit => exact runInstr_pipelineOnly _ _ _ s
  | _ => exact runsPipelineOnly_next rfl

/-! ### What only the host writes -/

/-- What only the host writes stays: the parameters, the object table, every `PUT`, the display pointer, the enable registers and plain
MMIO storage (R10, R32, R58, R88, R613). -/
structure HostKept (s t : State) : Prop where
  par : t.par = s.par
  objects : t.objects = s.objects
  put : ∀ ch, (chanAt t ch).put = (chanAt s ch).put
  displayed : t.irq.displayed = s.irq.displayed
  pmcEnable : t.irq.pmcEnable = s.irq.pmcEnable
  pgraphEnable : t.irq.pgraphEnable = s.irq.pgraphEnable
  pcrtcEnable : t.irq.pcrtcEnable = s.irq.pcrtcEnable
  mmio : t.mmio = s.mmio

theorem HostKept.trans {s t u : State} (h : HostKept s t) (h' : HostKept t u) : HostKept s u where
  par := h'.par.trans h.par
  objects := h'.objects.trans h.objects
  put ch := (h'.put ch).trans (h.put ch)
  displayed := h'.displayed.trans h.displayed
  pmcEnable := h'.pmcEnable.trans h.pmcEnable
  pgraphEnable := h'.pgraphEnable.trans h.pgraphEnable
  pcrtcEnable := h'.pcrtcEnable.trans h.pcrtcEnable
  mmio := h'.mmio.trans h.mmio

/-- A state with the parameters, object table, channels, interrupt registers and plain storage of another keeps what the host writes. -/
theorem hostKept_of_fields {s t : State} (hpar : t.par = s.par) (hobj : t.objects = s.objects) (hch : t.chans = s.chans)
    (hirq : t.irq = s.irq) (hmmio : t.mmio = s.mmio) : HostKept s t := by
  constructor <;> simp only [chanAt, hpar, hobj, hch, hirq, hmmio, implies_true]

/-- The parts together, the object table and the registers under the premises that a step gives them. -/
theorem HostKept.conjuncts {s t : State} {p q : Prop} (h : HostKept s t) :
    t.par = s.par ∧ (p → t.objects = s.objects) ∧
      (q → (∀ ch, (chanAt t ch).put = (chanAt s ch).put) ∧ t.irq.displayed = s.irq.displayed ∧ t.irq.pmcEnable = s.irq.pmcEnable ∧
        t.irq.pgraphEnable = s.irq.pgraphEnable ∧ t.irq.pcrtcEnable = s.irq.pcrtcEnable ∧ t.mmio = s.mmio) :=
  ⟨h.par, fun _ => h.objects, fun _ => ⟨h.put, h.displayed, h.pmcEnable, h.pgraphEnable, h.pcrtcEnable, h.mmio⟩⟩

theorem HostKept.refl (s : State) : HostKept s s := hostKept_of_fields rfl rfl rfl rfl rfl

theorem PipelineOnly.hostKept {s t : State} (h : PipelineOnly s t) : HostKept s t := by
  rw [h]; exact hostKept_of_fields rfl rfl rfl rfl rfl

/-- Replacing the current channel by one with the same `PUT` (R32). -/
theorem setCur_hostKept (s : State) {c : Channel} (hc : c.put = (curChan s).put) : HostKept s (s.setCur c) where
  par := rfl
  objects := rfl
  put ch := by
    rw [State.setCur, chanAt_setChan]
    split
    case isTrue h => rw [hc, h]; rfl
    case isFalse => rfl
  displayed := rfl
  pmcEnable := rfl
  pgraphEnable := rfl
  pcrtcEnable := rfl
  mmio := rfl

theorem setGet_hostKept (s : State) (g : Word) : HostKept s (s.setGet g) := setCur_hostKept s rfl

theorem setBurst_hostKept (s : State) (b : Burst) : HostKept s (s.setBurst b) := setCur_hostKept s rfl

theorem suspend_hostKept (s : State) (r : Wait) : HostKept s (s.suspend r) := setCur_hostKept s rfl

theorem raise_hostKept (s : State) (k : DiagKind) : HostKept s (s.raise k) := hostKept_of_fields rfl rfl rfl rfl rfl

theorem setReg_hostKept (s : State) (ch : BitVec 5) (subc : BitVec 3) (m : BitVec 11) (d : Word) : HostKept s (s.setReg ch subc m d) :=
  hostKept_of_fields rfl rfl rfl rfl rfl

theorem bindHandle_hostKept (s : State) (subc : BitVec 3) (handle : Word) : HostKept s (s.bindHandle subc handle) := by
  unfold State.bindHandle
  split
  · exact hostKept_of_fields rfl rfl rfl rfl rfl
  · exact raise_hostKept ..

/-- A change of the interrupt registers that leaves those of the host; `update_irq` leaves them too (R604). -/
theorem withIrq_hostKept (s : State) {f : Irq → Irq} (hd : (f s.irq).displayed = s.irq.displayed)
    (hm : (f s.irq).pmcEnable = s.irq.pmcEnable) (hg : (f s.irq).pgraphEnable = s.irq.pgraphEnable)
    (hc : (f s.irq).pcrtcEnable = s.irq.pcrtcEnable) : HostKept s (s.withIrq f) :=
  ⟨rfl, rfl, fun _ => rfl, hd, hm, hg, hc, rfl⟩

theorem resumeAll_put (r : Wait) (cs : Bank Channel) (ch : BitVec 5) :
    (bankGet .init (resumeAll r cs) ch.toNat).put = (bankGet .init cs ch.toNat).put := by
  rw [bankGet_resumeAll _ _ _ ch.isLt]
  split <;> rfl

/-- Resuming channels leaves every `PUT` (R606, R607). -/
theorem resumeAll_hostKept (r : Wait) (s : State) : HostKept s { s with chans := resumeAll r s.chans } :=
  ⟨rfl, rfl, fun ch => by simpa only [chanAt] using resumeAll_put r s.chans ch, rfl, rfl, rfl, rfl, rfl⟩

theorem vblankEvent_hostKept (s : State) : HostKept s (vblankEvent s) := by
  unfold vblankEvent
  exact (withIrq_hostKept s rfl rfl rfl rfl).trans (resumeAll_hostKept .vblank _)

/-! ### Instructions and puller steps -/

/-- No instruction writes what only the host writes. -/
theorem exec_hostKept {i : Instr} {s t : State} (h : exec i s = .next t) : HostKept s t := by
  cases hi : isPullerInstr i with
  | false => exact (exec_pipelineOnly i s hi t h).hostKept
  | true =>
    cases i with
    | jump | call | oldJump => cases h; exact setGet_hostKept ..
    | increasing | nonincreasing | longNonincreasing => cases h; exact setBurst_hostKept ..
    | ret | sliConditional | invalid => cases h; exact raise_hostKept ..
    | bindObject =>
      cases h
      exact ((bindHandle_hostKept ..).trans (setReg_hostKept ..)).trans (setBurst_hostKept ..)
    | noOperation d =>
      simp only [exec, execNoOperation] at h
      split at h <;> cases h
      · exact .refl s
      · exact (withIrq_hostKept s rfl rfl rfl rfl).trans (suspend_hostKept ..)
    | waitForVblank => cases h; exact suspend_hostKept ..
    | _ => cases hi

theorem andThen_next {r : Run} {f : State → Run} {t : State} (h : Run.andThen r f = .next t) : ∃ u, r = .next u ∧ f u = .next t := by
  cases r with
  | next u => exact ⟨u, rfl, h⟩
  | fault e => cases h
  | refused e => cases h

theorem methodWrite_hostKept {d : Word} {s t : State} (h : methodWrite d s = .next t) : HostKept s t := by
  refine (setReg_hostKept s s.cur (curChan s).burst.subc (curChan s).burst.mthd d).trans ?_
  simp only [methodWrite] at h
  split at h
  · split at h
    · exact exec_hostKept h
    · cases h; exact .refl _
  · cases h; exact .refl _

theorem dataWord_hostKept {d : Word} {s t : State} (h : dataWord d s = .next t) : HostKept s t := by
  obtain ⟨u, hu, h⟩ := andThen_next h
  cases h
  exact (methodWrite_hostKept hu).trans (setBurst_hostKept ..)

theorem processWord_hostKept {w : Word} {s t : State} (h : processWord w s = .next t) : HostKept s t := by
  simp only [processWord] at h
  split at h
  · cases h; exact setBurst_hostKept ..
  · split at h
    · exact exec_hostKept h
    · split at h
      · exact exec_hostKept h
      · exact dataWord_hostKept h

theorem fetchWord_hostKept (s : State) : HostKept s (fetchWord s).2 := by
  have hbus (b : Bus) : HostKept s { s with bus := b } := hostKept_of_fields rfl rfl rfl rfl rfl
  exact (hbus _).trans (setGet_hostKept ..)

theorem pullerStep_hostKept {ch : BitVec 5} {s t : State} (h : pullerStep ch s = .next t) : HostKept s t := by
  simp only [pullerStep] at h
  split at h
  · have hcur : HostKept s { s with cur := ch } := hostKept_of_fields rfl rfl rfl rfl rfl
    exact (hcur.trans (fetchWord_hostKept _)).trans (processWord_hostKept h)
  · cases h; exact .refl s

/-! ### The host's moves -/

/-- Everything but channels, interrupt registers and plain MMIO storage stays. -/
def RegistersOnly (s t : State) : Prop := t = { s with chans := t.chans, irq := t.irq, mmio := t.mmio }

theorem resumeIdle_registersOnly {s t : State} (h : RegistersOnly s t) : RegistersOnly s (resumeIdle t) := by
  unfold resumeIdle
  split
  · unfold RegistersOnly at *
    rw [h]
  · exact h

/-- An MMIO store changes registers, no more (R610 to R613). -/
theorem mmioStore_registersOnly (off v : Word) (s : State) : RegistersOnly s (mmioStore off v s) := by
  unfold mmioStore
  split
  case h_3 => exact resumeIdle_registersOnly rfl
  all_goals rfl

/-- An MMIO write that has a next state is of an aligned word (R86). -/
theorem hostMmioWrite_next {addr v : Word} {bytes : Nat} {s t : State} (h : hostMmioWrite addr bytes v s = .next t) :
    bytes = 4 ∧ t = mmioStore (mmioOffset s addr) v s := by
  unfold hostMmioWrite at h
  split at h
  case isTrue ha =>
    cases h
    simp only [mmioAligned, Bool.and_eq_true, decide_eq_true_eq] at ha
    exact ⟨ha.1, rfl⟩
  case isFalse => cases h

theorem hostMmioRead_hostKept {addr : Word} {bytes : Nat} {s t : State} (h : hostMmioRead addr bytes s = .next t) : HostKept s t := by
  unfold hostMmioRead at h
  split at h <;> cases h
  exact hostKept_of_fields rfl rfl rfl rfl rfl

/-- Everything that a move can do to what only the host writes: nothing, or it is the host's store of an MMIO word or its change of the
object table. -/
theorem agentStep_cases {a : Agent} {s t : State} (h : agentStep a s = .next t) :
    HostKept s t ∨ (∃ addr v, a = .mmioWrite addr 4 v ∧ t = mmioStore (mmioOffset s addr) v s) ∨
      ∃ ch handle o, a = .placeObject ch handle o ∧ t = hostPlaceObject ch handle o s := by
  cases a with
  | puller ch => exact .inl (pullerStep_hostKept h)
  | vblank => cases h; exact .inl (vblankEvent_hostKept s)
  | mmioWrite addr bytes v =>
    obtain ⟨rfl, ht⟩ := hostMmioWrite_next h
    exact .inr (.inl ⟨addr, v, rfl, ht⟩)
  | mmioRead addr bytes => exact .inl (hostMmioRead_hostKept h)
  | memWrite addr data => cases h; exact .inl (hostKept_of_fields rfl rfl rfl rfl rfl)
  | placeObject ch handle o => cases h; exact .inr (.inr ⟨ch, handle, o, rfl, rfl⟩)

/-- Everything that a step can do: the first move of the agenda, or, with an empty agenda, a puller step or nothing (R671). -/
theorem step_cases {s t : State} (h : step s = .next t) :
    (∃ a rest, s.agenda = a :: rest ∧ agentStep a { s with agenda := rest } = .next t) ∨
      s.agenda = [] ∧ ((∃ ch, pullerStep ch s = .next t) ∨ t = s) := by
  unfold step cycle at h
  split at h
  case h_1 a rest ha => exact .inl ⟨a, rest, ha, h⟩
  case h_2 ha =>
    split at h
    case h_1 ch _ => exact .inr ⟨ha, .inl ⟨ch, h⟩⟩
    case h_2 => cases h; exact .inr ⟨ha, .inr rfl⟩

end Sys2Proof.Machine

section
open Sys2Proof Sys2Proof.Machine

/-- Settles O17: of the moves of the agents only the host's MMIO store and `placeObject` touch what the host writes, and each is excluded
where its part is claimed. -/
theorem onlyHostWrites : Obligations.OnlyHostWrites := by
  intro s t h
  rcases step_cases h with ⟨a, rest, ha, h⟩ | ⟨-, ⟨ch, h⟩ | rfl⟩
  · have hrest : HostKept s { s with agenda := rest } := hostKept_of_fields rfl rfl rfl rfl rfl
    rcases agentStep_cases h with hk | ⟨addr, v, rfl, rfl⟩ | ⟨ch, handle, o, rfl, rfl⟩
    · exact (hrest.trans hk).conjuncts
    · have hreg := mmioStore_registersOnly (mmioOffset { s with agenda := rest } addr) v { s with agenda := rest }
      rw [hreg]
      exact ⟨rfl, fun _ => rfl, fun hno => absurd (by rw [ha]; rfl) (hno addr v)⟩
    · exact ⟨rfl, fun hno => absurd (by rw [ha]; rfl) (hno ch handle o), fun _ => ⟨fun _ => rfl, rfl, rfl, rfl, rfl, rfl⟩⟩
  · exact (pullerStep_hostKept h).conjuncts
  · exact (HostKept.refl _).conjuncts

end
end

section
/-! PROOFS. The fields that the render-target and clear methods store, and the size of the render target that follows from them (R37,
R200 to R209). -/

namespace Sys2Proof.Machine
open Sys2Proof

/-! ### Bit fields of a data word -/

/-- The bits `hi` down to `lo` of a word, which the statements take by division, are those that the methods cut out (R12). -/
theorem wordBits_eq_extractLsb' (d : Word) (hi lo : Nat) : wordBits d hi lo = d.extractLsb' lo (hi + 1 - lo) := by
  rw [wordBits, BitVec.extractLsb', Nat.shiftRight_eq_div_pow]

theorem lo16_eq_wordBits (d : Word) : lo16 d = wordBits d 15 0 := (wordBits_eq_extractLsb' d 15 0).symm

theorem hi16_eq_wordBits (d : Word) : hi16 d = wordBits d 31 16 := (wordBits_eq_extractLsb' d 31 16).symm

/-! ### Methods that store several fields -/

theorem exec_surfaceClipHorizontal (d : Word) (s : State) :
    exec (.surfaceClipHorizontal d) s =
      .next { s with surf := { s.surf with clipX := wordBits d 15 0, clipW := wordBits d 31 16 } } := by
  rw [← lo16_eq_wordBits, ← hi16_eq_wordBits]; rfl

theorem exec_surfaceClipVertical (d : Word) (s : State) :
    exec (.surfaceClipVertical d) s =
      .next { s with surf := { s.surf with clipY := wordBits d 15 0, clipH := wordBits d 31 16 } } := by
  rw [← lo16_eq_wordBits, ← hi16_eq_wordBits]; rfl

theorem exec_surfaceFormat (d : Word) (s : State) :
    exec (.surfaceFormat d) s = .next { s with
      surf := { s.surf with
        colorFmt := wordBits d 3 0, zetaFmt := wordBits d 7 4, layout := wordBits d 11 8, aa := wordBits d 15 12
        log2w := wordBits d 23 16, log2h := wordBits d 31 24 } } := by
  simp only [wordBits_eq_extractLsb']; rfl

theorem exec_surfacePitch (d : Word) (s : State) :
    exec (.surfacePitch d) s =
      .next { s with surf := { s.surf with colorPitch := wordBits d 15 0, zetaPitch := wordBits d 31 16 } } := by
  rw [← lo16_eq_wordBits, ← hi16_eq_wordBits]; rfl

theorem exec_clearRectHorizontal (d : Word) (s : State) :
    exec (.clearRectHorizontal d) s =
      .next { s with clear := { s.clear with x0 := wordBits d 15 0, x1 := wordBits d 31 16 } } := by
  rw [← lo16_eq_wordBits, ← hi16_eq_wordBits]; rfl

theorem exec_clearRectVertical (d : Word) (s : State) :
    exec (.clearRectVertical d) s =
      .next { s with clear := { s.clear with y0 := wordBits d 15 0, y1 := wordBits d 31 16 } } := by
  rw [← lo16_eq_wordBits, ← hi16_eq_wordBits]; rfl

/-! ### The size of the render target -/

/-- The size by the factor that the table lists for the antialiasing mode (R37). -/
theorem sizeRendertarget_of_lookup {s : State} {n : Nat} (h : s.par.aaYScale.lookup s.surf.aa = some n) :
    sizeRendertarget s = s.surf.colorPitch.toNat * (s.surf.clipH.toNat * n) := by
  rw [sizeRendertarget, aaYScale, h, Option.getD_some]

/-- Under the default table the modes 0 and 1 do not scale the height. -/
theorem sizeRendertarget_init_one {s : State} (ht : s.par.aaYScale = aaYScaleInit) (ha : s.surf.aa = 0 ∨ s.surf.aa = 1) :
    sizeRendertarget s = s.surf.colorPitch.toNat * s.surf.clipH.toNat := by
  have hone : s.par.aaYScale.lookup s.surf.aa = some 1 := by
    rcases ha with ha | ha <;> rw [ht, ha] <;> rfl
  rw [sizeRendertarget_of_lookup hone, Nat.mul_one]

/-- Under the default table the mode 2 doubles the height. -/
theorem sizeRendertarget_init_two {s : State} (ht : s.par.aaYScale = aaYScaleInit) (ha : s.surf.aa = 2) :
    sizeRendertarget s = s.surf.colorPitch.toNat * (2 * s.surf.clipH.toNat) := by
  have htwo : s.par.aaYScale.lookup s.surf.aa = some 2 := by rw [ht, ha]; rfl
  rw [sizeRendertarget_of_lookup htwo, Nat.mul_comm s.surf.clipH.toNat 2]

end Sys2Proof.Machine

section
open Sys2Proof Sys2Proof.Machine

/-- Settles O24: a method that stores its whole word does so by definition, the others by their fields, and the size follows from the
factor that the table lists. -/
theorem surfaceMethods : Obligations.SurfaceMethods := by
  intro d s
  exact ⟨exec_surfaceClipHorizontal d s, exec_surfaceClipVertical d s, exec_surfaceFormat d s, exec_surfacePitch d s, rfl, rfl, rfl, rfl,
    exec_clearRectHorizontal d s, exec_clearRectVertical d s, fun _ => sizeRendertarget_of_lookup,
    fun ht => ⟨sizeRendertarget_init_one ht, sizeRendertarget_init_two ht⟩⟩

end
end

section
/-! PROOFS. What each state operation, each instruction, each move of an agent and each step does to memory and the diagnostic log: memory
stays canonical and within `PHYS_SIZE`, and the log grows (R80, R84, R620). -/

namespace Sys2Proof.Machine
open Sys2Proof

/-! ### Works, as a property of two states -/

/-- The parameters stay, and the bus is worked on within `PHYS_SIZE`: memory stays canonical and in range, the log grows. -/
structure StateWorks (s t : State) : Prop where
  par : t.par = s.par
  bus : Works s.par.physSize s.bus t.bus

theorem StateWorks.trans {s t u : State} (h : StateWorks s t) (h' : StateWorks t u) : StateWorks s u where
  par := h'.par.trans h.par
  bus := h.bus.trans (h.par ▸ h'.bus)

theorem stateWorks_of_eq {s t : State} (hpar : t.par = s.par) (hbus : t.bus = s.bus) : StateWorks s t :=
  ⟨hpar, hbus ▸ .refl _ _⟩

theorem StateWorks.refl (s : State) : StateWorks s s := stateWorks_of_eq rfl rfl

theorem ReadsOnly.stateWorks {s : State} {b : Bus} (h : ReadsOnly s.bus b) : StateWorks s { s with bus := b } := ⟨rfl, h.works⟩

theorem raise_stateWorks (s : State) (k : DiagKind) : StateWorks s (s.raise k) := (raise_readsOnly ..).stateWorks

theorem raiseAfter_stateWorks {s t : State} {k : DiagKind} (h : StateWorks s t) : StateWorks s (t.raise k) :=
  h.trans (raise_stateWorks t k)

theorem raiseWhen_stateWorks {c : Prop} [Decidable c] {s t : State} {k : DiagKind} (h : StateWorks s t) :
    StateWorks s (if c then t.raise k else t) := by
  split
  · exact raiseAfter_stateWorks h
  · exact h

/-- The memory invariant is that of the bus at the size in force, so what works on the bus keeps it. -/
theorem StateWorks.memoryInv {s t : State} (h : StateWorks s t) (hs : memoryInv s = true) : memoryInv t = true := by
  have hok : busOk s.par.physSize t.bus = true := h.bus.1 hs
  rwa [← h.par] at hok

/-! ### Interrupts and suspension -/

theorem withIrq_stateWorks (s : State) (f : Irq → Irq) : StateWorks s (s.withIrq f) := stateWorks_of_eq rfl rfl

theorem suspend_stateWorks (s : State) (r : Wait) : StateWorks s (s.suspend r) := stateWorks_of_eq rfl rfl

theorem resumeAll_stateWorks (r : Wait) (s : State) : StateWorks s { s with chans := resumeAll r s.chans } :=
  stateWorks_of_eq rfl rfl

/-! ### The clear (R210) -/

/-- A choice between working and doing nothing. -/
theorem works_ite {size : Nat} {c : Prop} [Decidable c] {b b' : Bus} (h : Works size b b') : Works size b (if c then b' else b) := by
  split
  · exact h
  · exact .refl size b

theorem clearColor_works (q : Who) (t : Surface) (p : PixelState) (value d : Word) (x y : Nat) (b : Bus) :
    Works q.size b (clearColor q t p value d x y b) := (memReadWord_readsOnly ..).works.trans (memWrite_works ..)

theorem clearZeta_works (q : Who) (t : Surface) (p : PixelState) (value d : Word) (x y : Nat) (b : Bus) :
    Works q.size b (clearZeta q t p value d x y b) := (memReadWord_readsOnly ..).works.trans (memWrite_works ..)

theorem clearPixel_works (q : Who) (t : Surface) (p : PixelState) (c : ClearState) (d : Word) (x y : Nat) (b : Bus) :
    Works q.size b (clearPixel q t p c d x y b) :=
  works_ite ((works_ite (clearColor_works ..)).trans (works_ite (clearZeta_works ..)))

theorem clearSurface_works (q : Who) (t : Surface) (p : PixelState) (c : ClearState) (d : Word) (b : Bus) :
    Works q.size b (clearSurface q t p c d b) := by
  have hraise (k : DiagKind) (b : Bus) : Works q.size b (raise q k b) := (raise_readsOnly ..).works
  have hdiags := (works_ite (c := clearsColor d && !colorOk t) (hraise .unsupportedSurface b)).trans
    (works_ite (c := clearsZeta d && !zetaOk t) (hraise .noZeta _))
  refine hdiags.trans ?_
  exact loopFrom_rel (.refl _) .trans (fun y => loopFrom_rel (.refl _) .trans (fun x => clearPixel_works q t p c d x y) _ _) _ _ _

/-! ### Emission (R255, R262 to R265) -/

theorem setAttr_stateWorks (s : State) (slot : Nat) (c : BitVec 2) (d : Word) : StateWorks s (s.setAttr slot c d) :=
  stateWorks_of_eq rfl rfl

theorem setAttrVec_stateWorks (s : State) (slot : Nat) (v : Vec4) : StateWorks s (s.setAttrVec slot v) := stateWorks_of_eq rfl rfl

theorem emit_stateWorks {vtx : Bank Vec4} {s t : State} (h : emit vtx s = .ok t) : StateWorks s t :=
  ⟨by rw [emit_frame vtx s h], (emit_drawsIn vtx s h).1⟩

theorem emitIndexed_stateWorks {n : Word} {s t : State} (h : emitIndexed n s = .ok t) : StateWorks s t :=
  (fetchVertex_readsOnly (who s) s.va s.pvtx n s.bus).stateWorks.trans (emit_stateWorks h)

theorem emitRange_stateWorks {start : Word} {count : Nat} {s t : State} (h : emitRange start count s = .ok t) : StateWorks s t := by
  induction count generalizing start s with
  | zero => cases h; exact .refl _
  | succ count ih =>
    obtain ⟨u, hu, h⟩ := except_bind_ok h
    exact (emitIndexed_stateWorks hu).trans (ih h)

theorem emitInline_stateWorks {s t : State} (h : emitInline s = .ok t) : StateWorks s t := by
  obtain ⟨u, hu, rfl⟩ := except_map_ok h
  have hemit : StateWorks s u := (inlineVertex_readsOnly (who s) s.va s.pvtx s.bus).stateWorks.trans (emit_stateWorks hu)
  exact hemit.trans (stateWorks_of_eq rfl rfl)

/-! ### Instructions -/

/-- Every outcome of a meaning works on the bus. -/
def RunsWork (s : State) (r : Run) : Prop := ∀ t, r = .next t → StateWorks s t

theorem runsWork_next {s t : State} (h : StateWorks s t) : RunsWork s (.next t) := by
  rintro _ ⟨⟩; exact h

/-- A meaning that stores fields beside the parameters, memory and the log. -/
theorem runsWork_store {s t : State} (hpar : t.par = s.par) (hbus : t.bus = s.bus) : RunsWork s (.next t) :=
  runsWork_next (stateWorks_of_eq hpar hbus)

theorem runsWork_ofExcept {s : State} {r : Except Refusal State} (h : ∀ t, r = .ok t → StateWorks s t) :
    RunsWork s (Run.ofExcept r) := fun t ht => h t (ofExcept_next ht)

theorem runsWork_ite {c : Prop} [Decidable c] {s : State} {r q : Run} (hr : RunsWork s r) (hq : RunsWork s q) :
    RunsWork s (if c then r else q) := by
  split
  · exact hr
  · exact hq

theorem emitWhen_runsWork {c : Bool} {s u : State} (h : StateWorks s u) : RunsWork s (emitWhen c u) :=
  runsWork_ite (runsWork_ofExcept fun _ ht => h.trans (emit_stateWorks ht)) (runsWork_next h)

theorem runInstr_runsWork (vop sop : BitVec 4) (f : VpFields) (s : State) : RunsWork s (runInstr vop sop f s) := by
  refine runsWork_ofExcept fun t ht => ?_
  obtain ⟨r, hr, rfl⟩ := except_map_ok ht
  exact ⟨rfl, (vpExecute_result _ _ _ _ _ _ _ hr).2.works⟩

theorem bindHandle_stateWorks (s : State) (subc : BitVec 3) (handle : Word) : StateWorks s (s.bindHandle subc handle) := by
  unfold State.bindHandle
  split
  · exact stateWorks_of_eq rfl rfl
  · exact raise_stateWorks ..

theorem execInlineArray_runsWork (d : Word) (s : State) : RunsWork s (execInlineArray d s) := by
  have hpush : StateWorks s { s with va := inlinePush s.va d } := stateWorks_of_eq rfl rfl
  exact runsWork_ite (runsWork_next (raise_stateWorks ..))
    (runsWork_ite (runsWork_ofExcept fun _ ht => hpush.trans (emitInline_stateWorks ht)) (runsWork_next hpush))

/-- Every instruction works on the bus: those named raise a diagnostic, clear, draw or run a vertex-program instruction, and every other
one stores fields beside it. -/
theorem exec_runsWork (i : Instr) (s : State) : RunsWork s (exec i s) := by
  cases i with
  | ret | sliConditional | invalid => exact runsWork_next (raise_stateWorks ..)
  | bindObject => exact runsWork_next ((bindHandle_stateWorks s _ _).trans (stateWorks_of_eq rfl rfl))
  | noOperation =>
    exact runsWork_ite (runsWork_next (.refl s)) (runsWork_next ((withIrq_stateWorks s _).trans (suspend_stateWorks ..)))
  | clearSurface => exact runsWork_next ⟨rfl, clearSurface_works (who s) ..⟩
  | combinerControl => exact runsWork_next (raiseWhen_stateWorks (stateWorks_of_eq rfl rfl))
  | beginEnd => exact runsWork_ite (runsWork_store rfl rfl) (runsWork_next (raiseWhen_stateWorks (stateWorks_of_eq rfl rfl)))
  | transformConstant =>
    exact runsWork_ite (runsWork_store rfl rfl) (runsWork_next (raiseAfter_stateWorks (stateWorks_of_eq rfl rfl)))
  | specularFogFactor => exact runsWork_ite (runsWork_store rfl rfl) (runsWork_store rfl rfl)
  | vertex3f2 => exact emitWhen_runsWork (c := true) ((setAttr_stateWorks ..).trans (setAttr_stateWorks ..))
  | vertex4f3 => exact emitWhen_runsWork (c := true) (setAttr_stateWorks ..)
  | vertexData2fM =>
    exact runsWork_ite (runsWork_next (setAttr_stateWorks ..))
      (emitWhen_runsWork (((setAttr_stateWorks ..).trans (setAttr_stateWorks ..)).trans (setAttr_stateWorks ..)))
  | vertexData4fM => exact emitWhen_runsWork (setAttr_stateWorks ..)
  | vertexData4sM => exact runsWork_ite (runsWork_next (setAttrVec_stateWorks ..)) (emitWhen_runsWork (setAttrVec_stateWorks ..))
  | vertexData2s | vertexData4ub => exact emitWhen_runsWork (setAttrVec_stateWorks ..)
  | arrayElement16 =>
    refine runsWork_ofExcept fun t ht => ?_
    obtain ⟨u, hu, ht⟩ := except_bind_ok ht
    exact (emitIndexed_stateWorks hu).trans (emitIndexed_stateWorks ht)
  | arrayElement32 => exact runsWork_ofExcept fun _ => emitIndexed_stateWorks
  | drawArrays => exact runsWork_ofExcept fun _ => emitRange_stateWorks
  | inlineArray => exact execInlineArray_runsWork _ s
  | vpNop | vpMov | vpMul | vpAdd | vpMad | vpDp3 | vpDph | vpDp4 | vpDst | vpMin | vpMax | vpSlt | vpSge | vpArl
  | vpSNop | vpSImv | vpSRcp | vpSRcc | vpSRsq | vpSExp | vpSLog | vpSLit => exact runInstr_runsWork _ _ _ s
  | _ => exact runsWork_store rfl rfl

/-! ### The puller -/

theorem methodWrite_runsWork (d : Word) (s : State) : RunsWork s (methodWrite d s) := by
  have hreg : StateWorks s (s.setReg s.cur (curChan s).burst.subc (curChan s).burst.mthd d) := stateWorks_of_eq rfl rfl
  unfold methodWrite
  dsimp only
  refine runsWork_ite ?_ (runsWork_next hreg)
  split
  · exact fun t ht => hreg.trans (exec_runsWork _ _ t ht)
  · exact runsWork_next hreg

theorem dataWord_runsWork (d : Word) (s : State) : RunsWork s (dataWord d s) := by
  intro t ht
  obtain ⟨u, hu, ht⟩ := andThen_next ht
  cases ht
  exact (methodWrite_runsWork d s u hu).trans (stateWorks_of_eq rfl rfl)

theorem processWord_runsWork (w : Word) (s : State) : RunsWork s (processWord w s) :=
  runsWork_ite (runsWork_store rfl rfl)
    (runsWork_ite (exec_runsWork _ s) (runsWork_ite (exec_runsWork _ s) (dataWord_runsWork w s)))

theorem fetchWord_stateWorks (s : State) : StateWorks s (fetchWord s).2 :=
  (memReadWord_readsOnly (who s) 4 (fetchAddr s s.cur) s.bus).stateWorks.trans (stateWorks_of_eq rfl rfl)

theorem pullerStep_runsWork (ch : BitVec 5) (s : State) : RunsWork s (pullerStep ch s) := by
  have hcur : StateWorks s { s with cur := ch } := stateWorks_of_eq rfl rfl
  exact runsWork_ite (fun t ht => (hcur.trans (fetchWord_stateWorks _)).trans (processWord_runsWork _ _ t ht))
    (runsWork_next (.refl s))

/-! ### The agents and the step -/

/-- A host write of memory drops the bytes out of range and raises nothing (R614). -/
theorem hostMemWrite_stateWorks (a : Word) (data : List Byte) (s : State) : StateWorks s (hostMemWrite a data s) := by
  refine ⟨rfl, fun hok => ?_, [], (List.append_nil _).symm⟩
  simp only [busOk, Bool.and_eq_true] at hok ⊢
  exact hostWriteBytes_keeps a data hok.1 hok.2

theorem hostMmioWrite_runsWork (addr v : Word) (bytes : Nat) (s : State) : RunsWork s (hostMmioWrite addr bytes v s) := by
  intro t ht
  obtain ⟨-, rfl⟩ := hostMmioWrite_next ht
  rw [mmioStore_registersOnly (mmioOffset s addr) v s]
  exact stateWorks_of_eq rfl rfl

theorem hostMmioRead_runsWork (addr : Word) (bytes : Nat) (s : State) : RunsWork s (hostMmioRead addr bytes s) := by
  unfold hostMmioRead
  split
  · exact runsWork_store rfl rfl
  · rintro _ ⟨⟩

theorem vblankEvent_stateWorks (s : State) : StateWorks s (vblankEvent s) := by
  unfold vblankEvent
  exact (withIrq_stateWorks s _).trans (resumeAll_stateWorks .vblank _)

theorem hostPlaceObject_stateWorks (ch : BitVec 5) (handle : Word) (o : Option ObjInfo) (s : State) :
    StateWorks s (hostPlaceObject ch handle o s) := stateWorks_of_eq rfl rfl

theorem agentStep_runsWork (a : Agent) (s : State) : RunsWork s (agentStep a s) := by
  cases a with
  | puller ch => exact pullerStep_runsWork ch s
  | mmioWrite addr bytes v => exact hostMmioWrite_runsWork addr v bytes s
  | mmioRead addr bytes => exact hostMmioRead_runsWork addr bytes s
  | memWrite addr data => exact runsWork_next (hostMemWrite_stateWorks addr data s)
  | vblank => exact runsWork_next (vblankEvent_stateWorks s)
  | placeObject ch handle o => exact runsWork_next (hostPlaceObject_stateWorks ch handle o s)

theorem step_stateWorks {s t : State} (h : step s = .next t) : StateWorks s t := by
  rcases step_cases h with ⟨a, rest, -, h⟩ | ⟨-, ⟨ch, h⟩ | rfl⟩
  · have hrest : StateWorks s { s with agenda := rest } := stateWorks_of_eq rfl rfl
    exact hrest.trans (agentStep_runsWork a { s with agenda := rest } t h)
  · exact pullerStep_runsWork ch s t h
  · exact .refl _

end Sys2Proof.Machine

section
open Sys2Proof Sys2Proof.Machine

/-- Settles O59: every step works on the bus, so it keeps memory canonical and within the unchanged `PHYS_SIZE`. -/
theorem stepKeepsMemoryForm : Obligations.StepKeepsMemoryForm := fun _ _ hs h => (step_stateWorks h).memoryInv hs

end
end

section
/-! PROOFS. Dilation (R90), by bits: the even bits of a texel index are those of `x`, the odd bits those of `y`. -/

namespace Sys2Proof.Machine
open Sys2Proof

/-! ### The bits of `spread` -/

/-- The sum of R90 over the dilated bits. -/
theorem spread_eq_sum (x b : Nat) : spread x b = ∑ n ∈ Finset.range b, x / 2 ^ n % 2 * 2 ^ (2 * n) := by
  induction b with
  | zero => rfl
  | succ b ih => rw [spread, Finset.sum_range_succ, ih, Nat.pow_mul]

theorem two_mul_spread_eq_sum (x b : Nat) : 2 * spread x b = ∑ n ∈ Finset.range b, x / 2 ^ n % 2 * 2 ^ (2 * n + 1) := by
  rw [spread_eq_sum, Finset.mul_sum]
  exact Finset.sum_congr rfl fun n _ => by ring

/-- The dilated bits stand on even places below `2 b`, so three times their number still fits. -/
theorem three_mul_spread_lt (x b : Nat) : 3 * spread x b < 4 ^ b := by
  induction b with
  | zero => norm_num [spread]
  | succ b ih =>
    have hbit : x / 2 ^ b % 2 * 4 ^ b ≤ 1 * 4 ^ b := Nat.mul_le_mul_right _ (by omega)
    rw [spread, Nat.pow_succ]
    omega

theorem two_mul_spread_lt (x b : Nat) : 2 * spread x b < 2 ^ (2 * b) := by
  have := three_mul_spread_lt x b
  rw [Nat.pow_mul, show 2 ^ 2 = 4 from rfl]
  omega

theorem spread_lt (x b : Nat) : spread x b < 2 ^ (2 * b) := by
  have := two_mul_spread_lt x b
  omega

/-- Bit `n` of `x` moves to bit `2n`; every other bit is clear. -/
theorem testBit_spread (x b k : Nat) : (spread x b).testBit k = (decide (k % 2 = 0 ∧ k / 2 < b) && x.testBit (k / 2)) := by
  induction b with
  | zero => simp [spread]
  | succ b ih =>
    have hsplit : spread x (b + 1) = 2 ^ (2 * b) * (x.testBit b).toNat + spread x b := by
      rw [spread, Nat.pow_mul, Nat.toNat_testBit, Nat.mul_comm, Nat.add_comm]
    rw [hsplit, Nat.testBit_two_pow_mul_add _ (spread_lt x b), ih, Nat.testBit_bool_toNat]
    by_cases hlow : k < 2 * b
    · have hiff : k / 2 < b ↔ k / 2 < b + 1 := by omega
      simp only [if_pos hlow, hiff]
    · by_cases htop : k = 2 * b
      · subst htop
        simp
      · have hnone : ¬ (k % 2 = 0 ∧ k / 2 < b + 1) := by omega
        have hpos : k - 2 * b ≠ 0 := by omega
        simp only [if_neg hlow, hnone, hpos, decide_false, Bool.false_and]

theorem testBit_spread_even (x : Nat) {b n : Nat} (hn : n < b) : (spread x b).testBit (2 * n) = x.testBit n := by
  simp [testBit_spread, hn]

theorem testBit_spread_odd (x b n : Nat) : (spread x b).testBit (2 * n + 1) = false := by
  simp [testBit_spread]

theorem testBit_two_mul_spread_even (x b n : Nat) : (2 * spread x b).testBit (2 * n) = false := by
  cases n with
  | zero => simp
  | succ n => rw [Nat.mul_succ, Nat.testBit_succ, Nat.mul_div_cancel_left _ (by decide), testBit_spread_odd]

theorem testBit_two_mul_spread_odd (x : Nat) {b n : Nat} (hn : n < b) : (2 * spread x b).testBit (2 * n + 1) = x.testBit n := by
  rw [Nat.testBit_succ, Nat.mul_div_cancel_left _ (by decide), testBit_spread_even x hn]

/-! ### The interleaved index -/

section interleave
variable {x y b : Nat}

theorem dilate0_of_lt (hb : b ≤ 15) (hx : x < 2 ^ b) : dilate0 x b = spread x b := by
  rw [dilate0, if_pos hb, Nat.div_eq_of_lt hx, Nat.zero_mul, Nat.add_zero]

theorem dilate1_of_lt (hb : b ≤ 15) (hy : y < 2 ^ b) : dilate1 y b = 2 * spread y b := by
  rw [dilate1, if_pos hb, Nat.div_eq_of_lt hy, Nat.zero_mul, Nat.add_zero]

theorem dilate_or_lt (hb : b ≤ 15) (hx : x < 2 ^ b) (hy : y < 2 ^ b) : dilate0 x b ||| dilate1 y b < 2 ^ (2 * b) := by
  rw [dilate0_of_lt hb hx, dilate1_of_lt hb hy]
  exact Nat.or_lt_two_pow (spread_lt x b) (two_mul_spread_lt y b)

theorem testBit_dilate_or_even (hb : b ≤ 15) (hx : x < 2 ^ b) (hy : y < 2 ^ b) {n : Nat} (hn : n < b) :
    (dilate0 x b ||| dilate1 y b).testBit (2 * n) = x.testBit n := by
  rw [dilate0_of_lt hb hx, dilate1_of_lt hb hy, Nat.testBit_or, testBit_spread_even x hn, testBit_two_mul_spread_even,
    Bool.or_false]

theorem testBit_dilate_or_odd (hb : b ≤ 15) (hx : x < 2 ^ b) (hy : y < 2 ^ b) {n : Nat} (hn : n < b) :
    (dilate0 x b ||| dilate1 y b).testBit (2 * n + 1) = y.testBit n := by
  rw [dilate0_of_lt hb hx, dilate1_of_lt hb hy, Nat.testBit_or, testBit_spread_odd, testBit_two_mul_spread_odd y hn,
    Bool.false_or]

end interleave

/-- Numbers below `2 ^ b` are equal where their bits below `b` are. -/
theorem eq_of_testBit_below {b m n : Nat} (hm : m < 2 ^ b) (hn : n < 2 ^ b) (h : ∀ i < b, m.testBit i = n.testBit i) : m = n := by
  refine Nat.eq_of_testBit_eq fun i => ?_
  by_cases hi : i < b
  · exact h i hi
  · have hpow : 2 ^ b ≤ 2 ^ i := Nat.pow_le_pow_right (by omega) (by omega)
    rw [Nat.testBit_lt_two_pow (by omega), Nat.testBit_lt_two_pow (by omega)]

/-- Every second bit of `k`, from bit `r` on: the coordinate that `k` interleaves. -/
def everySecondBit (k r b : Nat) : Nat := Nat.ofBits fun n : Fin b => k.testBit (2 * n + r)

theorem everySecondBit_lt (k r b : Nat) : everySecondBit k r b < 2 ^ b := Nat.ofBits_lt_two_pow _

theorem testBit_everySecondBit (k r : Nat) {b n : Nat} (hn : n < b) : (everySecondBit k r b).testBit n = k.testBit (2 * n + r) :=
  Nat.testBit_ofBits_lt _ n hn

/-- Every texel index below `4 ^ b` is the dilation of its even and its odd bits. -/
theorem dilate_or_everySecondBit {b k : Nat} (hb : b ≤ 15) (hk : k < 2 ^ (2 * b)) :
    dilate0 (everySecondBit k 0 b) b ||| dilate1 (everySecondBit k 1 b) b = k := by
  have hx := everySecondBit_lt k 0 b
  have hy := everySecondBit_lt k 1 b
  refine eq_of_testBit_below (dilate_or_lt hb hx hy) hk fun i hi => ?_
  obtain ⟨n, rfl | rfl⟩ := Nat.even_or_odd' i
  · have hn : n < b := by omega
    rw [testBit_dilate_or_even hb hx hy hn, testBit_everySecondBit k 0 hn, Nat.add_zero]
  · have hn : n < b := by omega
    rw [testBit_dilate_or_odd hb hx hy hn, testBit_everySecondBit k 1 hn]

/-- The texel index determines both coordinates. -/
theorem dilate_or_injective {b x y x' y' : Nat} (hb : b ≤ 15) (hx : x < 2 ^ b) (hy : y < 2 ^ b) (hx' : x' < 2 ^ b) (hy' : y' < 2 ^ b)
    (h : dilate0 x' b ||| dilate1 y' b = dilate0 x b ||| dilate1 y b) : x' = x ∧ y' = y := by
  constructor
  · refine eq_of_testBit_below hx' hx fun n hn => ?_
    rw [← testBit_dilate_or_even hb hx' hy' hn, h, testBit_dilate_or_even hb hx hy hn]
  · refine eq_of_testBit_below hy' hy fun n hn => ?_
    rw [← testBit_dilate_or_odd hb hx' hy' hn, h, testBit_dilate_or_odd hb hx hy hn]

end Sys2Proof.Machine

section
open Sys2Proof Sys2Proof.Machine

/-- Settles O23: the sums are those of `spread`; the bijection reads each coordinate off its half of the bits. -/
theorem dilationBijection : Obligations.DilationBijection := by
  intro b hb
  refine ⟨fun x => ?sum0, fun x => ?sum1, fun x y hx hy => dilate_or_lt hb hx hy, fun k hk => ?bijection⟩
  case sum0 => rw [dilate0, if_pos hb, spread_eq_sum, Nat.pow_mul 2 2 b]
  case sum1 => rw [dilate1, if_pos hb, two_mul_spread_eq_sum, Nat.pow_mul 2 2 b]
  case bijection =>
    have hx := everySecondBit_lt k 0 b
    have hy := everySecondBit_lt k 1 b
    have hxy := dilate_or_everySecondBit hb hk
    exact ⟨_, _, ⟨hx, hy, hxy⟩, fun x' y' hx' hy' h => dilate_or_injective hb hx hy hx' hy' (h.trans hxy.symm)⟩

end
end

section
/-! PROOFS. The decoder and the encoder undo each other: command words (R110, R111), method words (R121) and vertex-program
instructions (R130). -/

namespace Sys2Proof

/-! ### Fields of a word (R12) -/

@[simp] theorem field_all (w : Word) : field w 0 32 = w := BitVec.extractLsb'_eq_self

/-- Two fields that touch are one field. -/
theorem field_append_field (w : Word) (lo m n : Nat) : field w (lo + m) n ++ field w lo m = field w lo (n + m) :=
  BitVec.extractLsb'_append_extractLsb'_eq_extractLsb' rfl

/-- Bits that the mask of a match condition covers stand as in its pattern. -/
theorem field_of_match {w m p : Word} {lo len : Nat} (h : w &&& m = p) (hm : field m lo len = BitVec.allOnes len) :
    field w lo len = field p lo len := by
  rw [← h, field, field, BitVec.extractLsb'_and, show BitVec.extractLsb' lo len m = _ from hm, BitVec.and_allOnes]

theorem append_eq_append_iff {m n : Nat} {a c : BitVec m} {b d : BitVec n} : a ++ b = c ++ d ↔ a = c ∧ b = d := by
  refine ⟨fun h => ⟨?high, ?low⟩, fun ⟨ha, hb⟩ => by rw [ha, hb]⟩
  case high => simpa only [BitVec.extractLsb'_append_eq_left] using congrArg (BitVec.extractLsb' n m) h
  case low => simpa only [BitVec.extractLsb'_append_eq_right] using congrArg (BitVec.extractLsb' 0 n) h

/-! ### Bytes (R83) -/

/-- The word of the four bytes of a word. -/
theorem wordOfBytes_fields (w : Word) : wordOfBytes (field w 0 8) (field w 8 8) (field w 16 8) (field w 24 8) = w := by
  rw [wordOfBytes, field_append_field w 16 8 8, field_append_field w 8 8 16, field_append_field w 0 8 24, field_all]

theorem wordsOfBytes_flatMap (ws : List Word) : wordsOfBytes (ws.flatMap bytesOfWord) = some ws := by
  induction ws with
  | nil => rfl
  | cons w ws ih =>
    rw [List.flatMap_cons, bytesOfWord]
    simp only [List.cons_append, List.nil_append, wordsOfBytes, ih, Option.map_some, wordOfBytes_fields]

/-- The bytes of words decode as the words. -/
theorem decodeBytes_flatMap (slot : Slot) (ws : List Word) : decodeBytes slot (ws.flatMap bytesOfWord) = decode slot ws := by
  rw [decodeBytes, decodeBytesBy, wordsOfBytes_flatMap, decode]

/-! ### The command table, row by row (R110) -/

/-- No word meets the match conditions of both rows: the patterns differ in a bit that both masks cover. -/
def CommandRow.exclusive (r r' : CommandRow) : Bool := r.pattern &&& r'.mask != r'.pattern &&& r.mask

theorem not_match_of_exclusive {r r' : CommandRow} {w : Word} (hr : r.exclusive r' = true) (h : w &&& r'.mask = r'.pattern) :
    w &&& r.mask ≠ r.pattern := by
  intro h'
  rw [CommandRow.exclusive, bne_iff_ne, ← h, ← h', BitVec.and_assoc, BitVec.and_assoc, BitVec.and_comm r.mask] at hr
  exact hr rfl

/-- In a table of rows that exclude each other, the order of the rows does not matter. -/
theorem decodeCommandBy_of_mem {rows : List CommandRow} (hrows : rows.Pairwise (CommandRow.exclusive · · = true))
    {r : CommandRow} (hr : r ∈ rows) {w : Word} (h : w &&& r.mask = r.pattern) : decodeCommandBy rows w = commandOf r.kind w := by
  induction hrows with
  | nil => cases hr
  | cons hfirst _ ih =>
    rw [decodeCommandBy_cons]
    cases hr with
    | head => rw [if_pos h]
    | tail _ hr => rw [if_neg (not_match_of_exclusive (hfirst _ hr) h), ih hr]

theorem cmdDecode_exclusive : cmdDecode.Pairwise (CommandRow.exclusive · · = true) := by decide +kernel

/-- A row of the command table, taken alone. -/
theorem decodeCommand_row {mask pattern : Word} (kind : CommandKind) (hr : ⟨mask, pattern, kind⟩ ∈ cmdDecode) {w : Word}
    (h : w &&& mask = pattern) : decodeCommand w = commandOf kind w :=
  decodeCommandBy_of_mem cmdDecode_exclusive hr h

/-! ### The words that the encoder writes for commands (R110, R111) -/

/-- A word in the six parts of a method header (R111). -/
theorem append_headerFields (w : Word) :
    field w 29 3 ++ field w 18 11 ++ field w 16 2 ++ field w 13 3 ++ field w 2 11 ++ field w 0 2 = w := by
  rw [field_append_field w 18 11 3, field_append_field w 16 2 14, field_append_field w 13 3 16, field_append_field w 2 11 19,
    field_append_field w 0 2 30, field_all]

/-- The method, subchannel and count of a word given by its six parts. -/
theorem headerFields_append {w : Word} {top : BitVec 3} {count : BitVec 11} {x : BitVec 2} {subc : BitVec 3} {mthd : BitVec 11}
    {kind : BitVec 2} (h : w = top ++ count ++ x ++ subc ++ mthd ++ kind) :
    field w 2 11 = mthd ∧ field w 13 3 = subc ∧ field w 18 11 = count := by
  have hall := append_eq_append_iff.mp ((append_headerFields w).trans h)
  simp only [append_eq_append_iff] at hall
  obtain ⟨⟨⟨⟨⟨-, hcount⟩, -⟩, hsubc⟩, hmthd⟩, -⟩ := hall
  exact ⟨hmthd, hsubc, hcount⟩

/-- The mask of INCREASING and NONINCREASING clears the fields of a header. -/
theorem headerWord_and (top : BitVec 3) (mthd : BitVec 11) (subc : BitVec 3) (count : BitVec 11) :
    headerWord top mthd subc count &&& 0xE0030003 = headerWord top 0 0 0 := by
  have htop : top &&& 7#3 = top := BitVec.and_allOnes
  rw [headerWord, show (0xE0030003 : Word) = 7#3 ++ 0#11 ++ 3#2 ++ 0#3 ++ 0#11 ++ 3#2 from rfl, BitVec.and_append]
  simp only [BitVec.and_append, BitVec.and_zero, htop]
  rfl

theorem headerWord_fields {w : Word} {top : BitVec 3} (htop : field w 29 3 = top) (hmid : field w 16 2 = 0#2)
    (hkind : field w 0 2 = 0#2) : headerWord top (field w 2 11) (field w 13 3) (field w 18 11) = w := by
  have hw := append_headerFields w
  rw [htop, hmid, hkind] at hw
  exact hw

/-- A word is its target and its two kind bits. -/
theorem targetWord_fields {w : Word} {kind : BitVec 2} (hkind : field w 0 2 = kind) : field w 2 30 ++ kind = w := by
  rw [← hkind, field_append_field w 0 2 30, field_all]

/-- The mask of JUMP and CALL clears the target. -/
theorem targetWord_and (t : BitVec 30) (kind : BitVec 2) : (t ++ kind : Word) &&& 0x00000003 = 0#30 ++ kind := by
  have hkind : kind &&& 3#2 = kind := BitVec.and_allOnes
  rw [show (0x00000003 : Word) = 0#30 ++ 3#2 from rfl, BitVec.and_append, BitVec.and_zero, hkind]

theorem decodeCommand_jump (t : BitVec 30) : decodeCommand (t ++ 1#2) = .jump t := by
  rw [decodeCommand_row .jump (by decide) (targetWord_and t 1#2)]
  exact congrArg Instr.jump BitVec.extractLsb'_append_eq_left

theorem decodeCommand_call (t : BitVec 30) : decodeCommand (t ++ 2#2) = .call t := by
  rw [decodeCommand_row .call (by decide) (targetWord_and t 2#2)]
  exact congrArg Instr.call BitVec.extractLsb'_append_eq_left

theorem decodeCommand_increasing (mthd : BitVec 11) (subc : BitVec 3) (count : BitVec 11) :
    decodeCommand (headerWord 0 mthd subc count) = .increasing mthd subc count := by
  obtain ⟨hmthd, hsubc, hcount⟩ := headerFields_append (w := headerWord 0 mthd subc count) rfl
  rw [decodeCommand_row .increasing (by decide) (headerWord_and 0 mthd subc count), commandOf, hmthd, hsubc, hcount]

theorem decodeCommand_nonincreasing (mthd : BitVec 11) (subc : BitVec 3) (count : BitVec 11) :
    decodeCommand (headerWord 2 mthd subc count) = .nonincreasing mthd subc count := by
  obtain ⟨hmthd, hsubc, hcount⟩ := headerFields_append (w := headerWord 2 mthd subc count) rfl
  rw [decodeCommand_row .nonincreasing (by decide) (headerWord_and 2 mthd subc count), commandOf, hmthd, hsubc, hcount]

theorem decodeCommand_longNonincreasing (mthd : BitVec 11) (subc : BitVec 3) :
    decodeCommand (3#16 ++ subc ++ mthd ++ 0#2) = .longNonincreasing mthd subc := by
  have hmatch : (3#16 ++ subc ++ mthd ++ 0#2 : Word) &&& 0xFFFF0003 = 0x00030000 := by
    rw [show (0xFFFF0003 : Word) = 0xFFFF#16 ++ 0#3 ++ 0#11 ++ 3#2 from rfl]
    simp only [BitVec.and_append, BitVec.and_zero]; rfl
  obtain ⟨hmthd, hsubc, -⟩ := headerFields_append (w := 3#16 ++ subc ++ mthd ++ 0#2) (top := 0) (count := 0) (x := 3) rfl
  rw [decodeCommand_row .longNonincreasing (by decide) hmatch, commandOf, hmthd, hsubc]

/-- The middle one of three parts. -/
theorem extractLsb'_middle {l m n : Nat} (a : BitVec l) (b : BitVec m) (c : BitVec n) : (a ++ b ++ c).extractLsb' n m = b := by
  rw [BitVec.extractLsb'_append_eq_of_le (Nat.le_refl n), Nat.sub_self, BitVec.extractLsb'_append_eq_right]

theorem decodeCommand_oldJump (t : BitVec 27) : decodeCommand (1#3 ++ t ++ 0#2) = .oldJump t := by
  have hmatch : (1#3 ++ t ++ 0#2 : Word) &&& 0xE0000003 = 0x20000000 := by
    rw [show (0xE0000003 : Word) = 7#3 ++ 0#27 ++ 3#2 from rfl]
    simp only [BitVec.and_append, BitVec.and_zero]; rfl
  rw [decodeCommand_row .oldJump (by decide) hmatch]
  exact congrArg Instr.oldJump (extractLsb'_middle 1#3 t 0#2)

theorem decodeCommand_sliConditional (x : BitVec 14) : decodeCommand (1#16 ++ x ++ 0#2) = .sliConditional x := by
  have hmatch : (1#16 ++ x ++ 0#2 : Word) &&& 0xFFFF0003 = 0x00010000 := by
    rw [show (0xFFFF0003 : Word) = 0xFFFF#16 ++ 0#14 ++ 3#2 from rfl]
    simp only [BitVec.and_append, BitVec.and_zero]; rfl
  rw [decodeCommand_row .sliConditional (by decide) hmatch]
  exact congrArg Instr.sliConditional (extractLsb'_middle 1#16 x 0#2)

/-! ### Encoding a command word again (R110) -/

/-- A word that matches a row is written again from its fields: the bits that the mask covers are those of the pattern. -/
theorem encode_commandOf : ∀ r ∈ cmdDecode, ∀ w : Word, w &&& r.mask = r.pattern → encode (commandOf r.kind w) = (.command, [w]) := by
  simp only [cmdDecode, List.forall_mem_cons, List.not_mem_nil, false_implies, implies_true, and_true, commandOf, encode]
  refine ⟨fun w h => ?jump, fun w h => ?call, fun w h => ?increasing, fun w h => ?nonincreasing, fun w h => ?longNonincreasing,
    fun w h => ?ret, fun w h => ?oldJump, fun w h => ?sliConditional⟩
  case jump => rw [targetWord_fields (kind := 1#2) (field_of_match h rfl)]
  case call => rw [targetWord_fields (kind := 2#2) (field_of_match h rfl)]
  case increasing => rw [headerWord_fields (top := 0) (field_of_match h rfl) (field_of_match h rfl) (field_of_match h rfl)]
  case nonincreasing => rw [headerWord_fields (top := 2) (field_of_match h rfl) (field_of_match h rfl) (field_of_match h rfl)]
  case longNonincreasing =>
    have htop : field w 16 16 = 3#16 := field_of_match h rfl
    rw [← htop, field_append_field w 13 3 16, field_append_field w 2 11 19, targetWord_fields (kind := 0#2) (field_of_match h rfl)]
  case ret =>
    have hret : w = 0x00020000 := BitVec.and_allOnes.symm.trans h
    rw [hret]
  case oldJump =>
    have htop : field w 29 3 = 1#3 := field_of_match h rfl
    rw [← htop, field_append_field w 2 27 3, targetWord_fields (kind := 0#2) (field_of_match h rfl)]
  case sliConditional =>
    have htop : field w 16 16 = 1#16 := field_of_match h rfl
    rw [← htop, field_append_field w 2 14 16, targetWord_fields (kind := 0#2) (field_of_match h rfl)]

/-- A command word encodes again as itself, an INVALID one by keeping the whole word. -/
theorem encode_decodeCommand (w : Word) : encode (decodeCommand w) = (.command, [w]) := by
  obtain h | ⟨r, hr, hw, h⟩ := decodeCommandBy_cases cmdDecode w
  · rw [decodeCommand, h, encode]
  · rw [decodeCommand, h, encode_commandOf r hr w hw]

/-! ### The method map (R121) -/

/-- The addresses of two rows do not overlap. -/
def MethodRow.disjoint (r r' : MethodRow) : Bool := r.base + 4 * r.slots ≤ r'.base || r'.base + 4 * r'.slots ≤ r.base

theorem methodMap_disjoint : methodMap.Pairwise (MethodRow.disjoint · · = true) := by decide +kernel

/-- Every row begins at a word and ends below 0x2000, so that 11 bits hold its word indices. -/
theorem methodMap_bounds : ∀ r ∈ methodMap, r.base % 4 = 0 ∧ r.base + 4 * r.slots ≤ 0x2000 := by decide +kernel

/-- Each address of a row is the row's. -/
theorem methodAt_of_mem {r : MethodRow} (hr : r ∈ methodMap) {k : Nat} (hk : k < r.slots) (d : Word) :
    methodAt (r.base + 4 * k) d = some (r.make k d) := by
  have hholds : r.holds (r.base + 4 * k) = true := by simp [MethodRow.holds, hk]
  obtain ⟨r', hr'⟩ := Option.isSome_iff_exists.mp (List.find?_isSome (p := (·.holds (r.base + 4 * k))).mpr ⟨r, hr, hholds⟩)
  have heq : r = r' := by
    by_contra hne
    have hsymm : Std.Symm (MethodRow.disjoint · · = true) := ⟨fun a b h => (Bool.or_comm ..).trans h⟩
    have hd := methodMap_disjoint.forall hr (List.mem_of_find?_eq_some hr') hne
    have hholds' := List.find?_some hr'
    simp only [MethodRow.disjoint, MethodRow.holds, Bool.or_eq_true, Bool.and_eq_true, decide_eq_true_eq] at hd hholds'
    omega
  rw [methodAt, hr', ← heq, Option.map_some, Nat.add_sub_cancel_left, Nat.mul_div_cancel_left k (by decide)]

/-- The method word of slot `k` of a row. -/
theorem decodeMethod_of_mem {r : MethodRow} (hr : r ∈ methodMap) {k : Nat} (hk : k < r.slots) (d : Word) :
    decodeMethod (BitVec.ofNat 11 (r.base / 4 + k)) d = some (r.make k d) := by
  obtain ⟨halign, hend⟩ := methodMap_bounds r hr
  rw [decodeMethod_eq, BitVec.toNat_ofNat, ← methodAt_of_mem hr hk d]
  congr 1
  omega

/-- A method that the map reads stands at a slot of one of its rows. -/
theorem exists_row_of_decodeMethod {m : BitVec 11} {d : Word} {i : Instr} (h : decodeMethod m d = some i) :
    ∃ r ∈ methodMap, ∃ k < r.slots, m = BitVec.ofNat 11 (r.base / 4 + k) ∧ i = r.make k d := by
  rw [decodeMethod_eq, methodAt, Option.map_eq_some_iff] at h
  obtain ⟨r, hfind, hi⟩ := h
  have hr := List.mem_of_find?_eq_some hfind
  have hholds := List.find?_some hfind
  obtain ⟨halign, -⟩ := methodMap_bounds r hr
  simp only [MethodRow.holds, Bool.and_eq_true, decide_eq_true_eq] at hholds
  refine ⟨r, hr, (4 * m.toNat - r.base) / 4, by omega, BitVec.eq_of_toNat_eq ?_, hi.symm⟩
  rw [BitVec.toNat_ofNat]
  omega

/-- The data word of a method is an operand as it stands, and the slot does not depend on it. -/
theorem encode_make_data : ∀ r ∈ methodMap, ∀ k d, encode (r.make k d) = ((encode (r.make k 0)).1, [d]) := by
  simp only [methodMap, List.forall_mem_append, List.forall_mem_cons, List.not_mem_nil, false_implies, implies_true, and_true]
  and_intros <;> exact fun _ _ => rfl

/-- The encoder writes each slot of a row at the address that the map gives it. -/
theorem encode_make_slot :
    ∀ r ∈ methodMap, ∀ k ∈ List.range r.slots, (encode (r.make k 0)).1 = .method (BitVec.ofNat 11 (r.base / 4 + k)) := by
  decide +kernel

/-- What the map reads encodes again as the method word. -/
theorem encode_of_decodeMethod {m : BitVec 11} {d : Word} {i : Instr} (h : decodeMethod m d = some i) : encode i = (.method m, [d]) := by
  obtain ⟨r, hr, k, hk, rfl, rfl⟩ := exists_row_of_decodeMethod h
  rw [encode_make_data r hr, encode_make_slot r hr k (List.mem_range.mpr hk)]

/-! ### Methods with an index (R121) -/

/-- The row of `2 ^ n` addresses whose slot is an operand of the method. -/
def indexedRow {n : Nat} (base : Nat) (make : BitVec n → Word → Instr) : MethodRow :=
  ⟨base, 2 ^ n, fun k d => make (BitVec.ofNat n k) d⟩

/-- The row of `2 ^ (m + n)` addresses whose slot is two operands of the method, the component in the low bits. -/
def pairedRow {m n : Nat} (base : Nat) (make : BitVec m → BitVec n → Word → Instr) : MethodRow :=
  ⟨base, 2 ^ (m + n), fun k d => make (BitVec.ofNat m (k / 2 ^ n)) (BitVec.ofNat n k) d⟩

theorem decode_method {m : BitVec 11} {d : Word} {i : Instr} (h : decodeMethod m d = some i) : decode (.method m) [d] = .ok i :=
  (decodeBy_method .init m d i).mpr h

/-- The method at slot `k` of a row, where the index has `n` bits. -/
theorem decode_encodeMethod {r : MethodRow} (hr : methodMap.find? (·.base == r.base) = some r) {n : Nat} (k : BitVec n)
    (hk : k.toNat < r.slots) (d : Word) :
    decode (encodeMethod r.base (k.setWidth 11) d).1 (encodeMethod r.base (k.setWidth 11) d).2 = .ok (r.make k.toNat d) := by
  have h := decodeMethod_of_mem (List.mem_of_find?_eq_some hr) hk d
  rw [BitVec.ofNat_add, BitVec.ofNat_toNat] at h
  exact decode_method h

theorem decode_indexedRow {n base : Nat} {make : BitVec n → Word → Instr}
    (hr : methodMap.find? (·.base == base) = some (indexedRow base make)) (k : BitVec n) (d : Word) :
    decode (encodeMethod base (k.setWidth 11) d).1 (encodeMethod base (k.setWidth 11) d).2 = .ok (make k d) := by
  have h := decode_encodeMethod (r := indexedRow base make) hr k k.isLt d
  simpa only [indexedRow, BitVec.ofNat_toNat, BitVec.setWidth_eq] using h

theorem decode_pairedRow {m n base : Nat} {make : BitVec m → BitVec n → Word → Instr}
    (hr : methodMap.find? (·.base == base) = some (pairedRow base make)) (k : BitVec m) (c : BitVec n) (d : Word) :
    decode (encodeMethod base ((k ++ c).setWidth 11) d).1 (encodeMethod base ((k ++ c).setWidth 11) d).2 = .ok (make k c d) := by
  have h := decode_encodeMethod (r := pairedRow base make) hr (k ++ c) (k ++ c).isLt d
  have hhigh : BitVec.ofNat m ((k ++ c).toNat / 2 ^ n) = k := by
    rw [← Nat.shiftRight_eq_div_pow]; exact BitVec.extractLsb'_append_eq_left
  have hlow : BitVec.ofNat n (k ++ c).toNat = c := BitVec.extractLsb'_append_eq_right
  simpa only [pairedRow, hhigh, hlow] using h

/-! ### Vertex-program instructions (R130) -/

/-- The second word of an encoded instruction: its opcodes, its indices and the first part of operand A. -/
def vpWord1 (vop sop : BitVec 4) (f : VpFields) : Word := 0#3 ++ sop ++ vop ++ f.cidx ++ f.vidx ++ f.a.neg ++ f.a.swz

/-- The third word: the rest of operand A, operand B and the first part of operand C. -/
def vpWord2 (f : VpFields) : Word :=
  f.a.reg ++ f.a.mux ++ f.b.neg ++ f.b.swz ++ f.b.reg ++ f.b.mux ++ f.c.neg ++ f.c.swz ++ f.c.reg.extractLsb' 2 2

/-- The fourth word: the rest of operand C and the destinations. -/
def vpWord3 (f : VpFields) : Word :=
  f.c.reg.extractLsb' 0 2 ++ f.c.mux ++ f.vtMask ++ f.rDst ++ f.stMask ++ f.oMask ++ f.orb ++ f.oAddr ++ f.oMux ++ f.a0x ++ f.final

theorem encodeVp_eq (vop sop : BitVec 4) (f : VpFields) : encodeVp vop sop f = [0, vpWord1 vop sop f, vpWord2 f, vpWord3 f] := rfl

theorem field_vpWord1 (vop sop : BitVec 4) (f : VpFields) :
    field (vpWord1 vop sop f) 25 4 = sop ∧ field (vpWord1 vop sop f) 21 4 = vop ∧ field (vpWord1 vop sop f) 13 8 = f.cidx ∧
    field (vpWord1 vop sop f) 9 4 = f.vidx ∧ field (vpWord1 vop sop f) 8 1 = f.a.neg ∧ field (vpWord1 vop sop f) 0 8 = f.a.swz := by
  have happend (w : Word) :
      field w 29 3 ++ field w 25 4 ++ field w 21 4 ++ field w 13 8 ++ field w 9 4 ++ field w 8 1 ++ field w 0 8 = w := by
    rw [field_append_field w 25 4 3, field_append_field w 21 4 7, field_append_field w 13 8 11, field_append_field w 9 4 19,
      field_append_field w 8 1 23, field_append_field w 0 8 24, field_all]
  have hall := append_eq_append_iff.mp (happend (vpWord1 vop sop f))
  simp only [append_eq_append_iff, and_assoc] at hall
  obtain ⟨-, hfields⟩ := hall
  exact hfields

theorem field_vpWord2 (f : VpFields) :
    field (vpWord2 f) 28 4 = f.a.reg ∧ field (vpWord2 f) 26 2 = f.a.mux ∧ field (vpWord2 f) 25 1 = f.b.neg ∧
    field (vpWord2 f) 17 8 = f.b.swz ∧ field (vpWord2 f) 13 4 = f.b.reg ∧ field (vpWord2 f) 11 2 = f.b.mux ∧
    field (vpWord2 f) 10 1 = f.c.neg ∧ field (vpWord2 f) 2 8 = f.c.swz ∧ field (vpWord2 f) 0 2 = f.c.reg.extractLsb' 2 2 := by
  have happend (w : Word) :
      field w 28 4 ++ field w 26 2 ++ field w 25 1 ++ field w 17 8 ++ field w 13 4 ++ field w 11 2 ++ field w 10 1 ++ field w 2 8 ++
        field w 0 2 = w := by
    rw [field_append_field w 26 2 4, field_append_field w 25 1 6, field_append_field w 17 8 7, field_append_field w 13 4 15,
      field_append_field w 11 2 19, field_append_field w 10 1 21, field_append_field w 2 8 22, field_append_field w 0 2 30, field_all]
  simpa only [append_eq_append_iff, and_assoc] using append_eq_append_iff.mp (happend (vpWord2 f))

theorem field_vpWord3 (f : VpFields) :
    field (vpWord3 f) 30 2 = f.c.reg.extractLsb' 0 2 ∧ field (vpWord3 f) 28 2 = f.c.mux ∧ field (vpWord3 f) 24 4 = f.vtMask ∧
    field (vpWord3 f) 20 4 = f.rDst ∧ field (vpWord3 f) 16 4 = f.stMask ∧ field (vpWord3 f) 12 4 = f.oMask ∧
    field (vpWord3 f) 11 1 = f.orb ∧ field (vpWord3 f) 3 8 = f.oAddr ∧ field (vpWord3 f) 2 1 = f.oMux ∧
    field (vpWord3 f) 1 1 = f.a0x ∧ field (vpWord3 f) 0 1 = f.final := by
  have happend (w : Word) :
      field w 30 2 ++ field w 28 2 ++ field w 24 4 ++ field w 20 4 ++ field w 16 4 ++ field w 12 4 ++ field w 11 1 ++ field w 3 8 ++
        field w 2 1 ++ field w 1 1 ++ field w 0 1 = w := by
    rw [field_append_field w 28 2 2, field_append_field w 24 4 4, field_append_field w 20 4 8, field_append_field w 16 4 12,
      field_append_field w 12 4 16, field_append_field w 11 1 20, field_append_field w 3 8 21, field_append_field w 2 1 29,
      field_append_field w 1 1 30, field_append_field w 0 1 31, field_all]
  simpa only [append_eq_append_iff, and_assoc] using append_eq_append_iff.mp (happend (vpWord3 f))

/-- The fields of an encoded instruction; the register of operand C lies in two words. -/
theorem vpFieldsBy_encodeVp (vop sop : BitVec 4) (f : VpFields) :
    vpFieldsBy vpLayout ⟨0, vpWord1 vop sop f, vpWord2 f, vpWord3 f⟩ = f := by
  have hreg : f.c.reg.extractLsb' 2 2 ++ f.c.reg.extractLsb' 0 2 = f.c.reg := BitVec.extractLsb'_append_extractLsb'
  rw [vpFieldsBy_default]
  simp only [field_vpWord1, field_vpWord2, field_vpWord3, hreg]

theorem decode_vector {vop sop : BitVec 4} {f : VpFields} {i : Instr} (h : decodeVector vop sop f = some i) :
    decode .vector (encodeVp vop sop f) = .ok i := by
  obtain ⟨hsop, hvop, -⟩ := field_vpWord1 vop sop f
  rw [encodeVp_eq]
  simp only [decode, decodeBy, Tables.init, vpVopBy_default, vpSopBy_default, vpFieldsBy_encodeVp, hsop, hvop, h]

theorem decode_scalar {vop sop : BitVec 4} {f : VpFields} {i : Instr} (h : decodeScalar vop sop f = some i) :
    decode .scalar (encodeVp vop sop f) = .ok i := by
  obtain ⟨hsop, hvop, -⟩ := field_vpWord1 vop sop f
  rw [encodeVp_eq]
  simp only [decode, decodeBy, Tables.init, vpVopBy_default, vpSopBy_default, vpFieldsBy_encodeVp, hsop, hvop, h]

/-! ### Every instruction -/

theorem decode_command {w : Word} {i : Instr} (h : decodeCommand w = i) : decode .command [w] = .ok i :=
  congrArg Except.ok h

/-- The words of a well-formed instruction decode in its slot as the instruction. Only an INVALID word needs the hypothesis. -/
theorem decode_encode {i : Instr} (h : WellFormed i = true) : decode (encode i).1 (encode i).2 = .ok i := by
  cases i
  case jump t => exact decode_command (decodeCommand_jump t)
  case call t => exact decode_command (decodeCommand_call t)
  case increasing m c n => exact decode_command (decodeCommand_increasing m c n)
  case nonincreasing m c n => exact decode_command (decodeCommand_nonincreasing m c n)
  case longNonincreasing m c => exact decode_command (decodeCommand_longNonincreasing m c)
  case ret => exact decode_command (by decide)
  case oldJump t => exact decode_command (decodeCommand_oldJump t)
  case sliConditional x => exact decode_command (decodeCommand_sliConditional x)
  case invalid w => exact decode_command (beq_iff_eq.mp h)
  case bindObject handle => exact decodeBy_bind .init handle
  case combinerAlphaIcw k d => exact decode_indexedRow (make := .combinerAlphaIcw) rfl k d
  case projectionMatrix k d => exact decode_indexedRow (make := .projectionMatrix) rfl k d
  case modelViewMatrix k d => exact decode_indexedRow (make := .modelViewMatrix) rfl k d
  case inverseModelViewMatrix k d => exact decode_indexedRow (make := .inverseModelViewMatrix) rfl k d
  case compositeMatrix k d => exact decode_indexedRow (make := .compositeMatrix) rfl k d
  case viewportOffset k d => exact decode_indexedRow (make := .viewportOffset) rfl k d
  case combinerFactor0 k d => exact decode_indexedRow (make := .combinerFactor0) rfl k d
  case combinerFactor1 k d => exact decode_indexedRow (make := .combinerFactor1) rfl k d
  case combinerAlphaOcw k d => exact decode_indexedRow (make := .combinerAlphaOcw) rfl k d
  case combinerColorIcw k d => exact decode_indexedRow (make := .combinerColorIcw) rfl k d
  case viewportScale k d => exact decode_indexedRow (make := .viewportScale) rfl k d
  case transformProgram k d => exact decode_indexedRow (make := .transformProgram) rfl k d
  case transformConstant k d => exact decode_indexedRow (make := .transformConstant) rfl k d
  case vertexData2fM k c d => exact decode_pairedRow (make := .vertexData2fM) rfl k c d
  case vertexData2s k d => exact decode_indexedRow (make := .vertexData2s) rfl k d
  case vertexData4ub k d => exact decode_indexedRow (make := .vertexData4ub) rfl k d
  case vertexData4sM k c d => exact decode_pairedRow (make := .vertexData4sM) rfl k c d
  case vertexData4fM k c d => exact decode_pairedRow (make := .vertexData4fM) rfl k c d
  case specularFogFactor k d => exact decode_indexedRow (make := .specularFogFactor) rfl k d
  case combinerColorOcw k d => exact decode_indexedRow (make := .combinerColorOcw) rfl k d
  case vpNop sop f | vpMov sop f | vpMul sop f | vpAdd sop f | vpMad sop f | vpDp3 sop f | vpDph sop f | vpDp4 sop f | vpDst sop f
      | vpMin sop f | vpMax sop f | vpSlt sop f | vpSge sop f | vpArl sop f => exact decode_vector rfl
  case vpSNop vop f | vpSImv vop f | vpSRcp vop f | vpSRcc vop f | vpSRsq vop f | vpSExp vop f | vpSLog vop f | vpSLit vop f =>
    exact decode_scalar rfl
  -- Every other instruction is a method of one address, at which the map is evaluated.
  all_goals exact rfl

end Sys2Proof

section
open Sys2Proof Sys2Proof.Machine

/-- Settles O1: the bytes are the words of `encode` again, and these decode by the case of the instruction. -/
theorem decodeEncodeRoundTrip : Obligations.DecodeEncodeRoundTrip := fun i h => by
  rw [decodeBytes_flatMap, decode_encode h]

/-- Settles O2: by the row that the word matches, of the command table or of the method map. -/
theorem wordsHaveOneReading : Obligations.WordsHaveOneReading :=
  ⟨encode_decodeCommand, fun _ _ _ => encode_of_decodeMethod⟩

/-- Settles O3: the rows exclude each other, so the first match is the only one. -/
theorem commandTable : Obligations.CommandTable := by
  intro w
  simp only [wordBits_eq_extractLsb']
  refine ⟨fun h => decodeCommand_row .jump (by decide) h, fun h => decodeCommand_row .call (by decide) h,
    fun h => decodeCommand_row .increasing (by decide) h, fun h => decodeCommand_row .nonincreasing (by decide) h,
    fun h => decodeCommand_row .longNonincreasing (by decide) h,
    fun h => decodeCommand_row .ret (by decide) (BitVec.and_allOnes.trans h),
    fun h => decodeCommand_row .oldJump (by decide) h, fun h => decodeCommand_row .sliConditional (by decide) h,
    fun hjump hcall hinc hninc hlong hret hold hsli => ?invalid⟩
  have hret' : w &&& 0xFFFFFFFF ≠ 0x00020000 := fun h => hret (BitVec.and_allOnes.symm.trans h)
  rw [decodeCommand_eq, if_neg hjump, if_neg hcall, if_neg hinc, if_neg hninc, if_neg hlong, if_neg hret', if_neg hold, if_neg hsli]

/-- Settles O4: each word is evaluated by the default tables. -/
theorem decodedWords : Obligations.DecodedWords := by
  unfold Obligations.DecodedWords
  decide +kernel

end
end

section
/-! PROOFS. The command words, the bind-object data word, the fetch and the bookkeeping of a data word (R160 to R171). -/

namespace Sys2Proof.Machine
open Sys2Proof

/-! ### Writes of one entry, as the statements say them -/

theorem setsAt_bankSet {α : Type} [DecidableEq α] {d v : α} {b : Bank α} {n : Nat} : setsAt d b (bankSet d b n v) n v :=
  fun m => bankGet_set b n m v

theorem setsCurChan_setCur (s : State) (c : Channel) : setsCurChan (.next (s.setCur c)) s c :=
  ⟨s.setCur c, rfl, rfl, setsAt_bankSet⟩

theorem setsCurChan_setGet (s : State) {g g' : Word} (h : g = g') : setsCurChan (.next (s.setGet g)) s { curChan s with get := g' } :=
  h ▸ setsCurChan_setCur s _

theorem setsCurChan_setBurst (s : State) {b b' : Burst} (h : b = b') :
    setsCurChan (.next (s.setBurst b)) s { curChan s with burst := b' } :=
  h ▸ setsCurChan_setCur s _

theorem raisesOnly_raise (s : State) (k : DiagKind) : raisesOnly (.next (s.raise k)) s k := rfl

/-! ### Targets (R161, R162, R164) -/

/-- A word is the one that the instruction read from it encodes to. -/
theorem eq_of_decodeCommand {w w' : Word} {i : Instr} (h : decodeCommand w = i) (he : encode i = (.command, [w'])) : w = w' := by
  subst h
  simpa [encode_decodeCommand] using he

/-- Bits 31:2 of a word of JUMP or CALL, with two zero bits below, are its target. -/
theorem target_eq_and (t : BitVec 30) (kind : BitVec 2) : t ++ 0#2 = (t ++ kind : Word) &&& 0xFFFFFFFC := by
  have ht : t &&& 0x3FFFFFFF#30 = t := BitVec.and_allOnes
  rw [show (0xFFFFFFFC : Word) = 0x3FFFFFFF#30 ++ 0#2 from rfl, BitVec.and_append, ht, BitVec.and_zero]

/-- Bits 28:2 of a word of OLD_JUMP, with zero bits about them, are its target. -/
theorem oldTarget_eq_and (t : BitVec 27) (top : BitVec 3) (kind : BitVec 2) :
    0#3 ++ t ++ 0#2 = (top ++ t ++ kind : Word) &&& 0x1FFFFFFC := by
  have ht : t &&& 0x7FFFFFF#27 = t := BitVec.and_allOnes
  rw [show (0x1FFFFFFC : Word) = 0#3 ++ 0x7FFFFFF#27 ++ 0#2 from rfl, BitVec.and_append, BitVec.and_append, ht, BitVec.and_zero,
    BitVec.and_zero]

/-! ### Bursts (R165, R170) -/

/-- The burst of a counted header, its bind bit as one condition (R165). -/
theorem openBurst_eq (incr : Bool) (mthd : BitVec 11) (subc : BitVec 3) (count : BitVec 11) :
    openBurst incr mthd subc count = ⟨mthd, subc, BitVec.ofNat 24 count.toNat, incr, incr && decide (mthd = 0 ∧ count = 1), false⟩ := by
  rw [openBurst, Bool.and_assoc, Bool.decide_and, BitVec.ofNat_toNat]

/-- A sum of words is the sum of their values modulo the width's power of two (R12). -/
theorem add_ofNat_eq {w : Nat} (x : BitVec w) (n : Nat) : x + BitVec.ofNat w n = BitVec.ofNat w (x.toNat + n) := by
  rw [BitVec.ofNat_add, BitVec.ofNat_toNat, BitVec.setWidth_eq]

/-- The method moves on modulo 2048 (R170). -/
theorem nextBurst_eq (b : Burst) :
    nextBurst b = { b with count := b.count - 1, mthd := if b.incr then BitVec.ofNat 11 (b.mthd.toNat + 1) else b.mthd } := by
  rw [← add_ofNat_eq]; rfl

/-! ### The bind-object data word (R166) -/

section bindHandle
variable {s : State} {subc : BitVec 3} {handle : Word}

theorem bindHandle_found {o : ObjInfo} (h : objectLookup s s.cur handle = some o) :
    s.bindHandle subc handle = { s with subs := bankSet .none s.subs (subIndex s.cur subc) ⟨handle, o.cls⟩ } := by
  rw [State.bindHandle, h]

theorem bindHandle_unknown (h : objectLookup s s.cur handle = none) : s.bindHandle subc handle = s.raise .unknownHandle := by
  rw [State.bindHandle, h]

/-- A handle changes bindings and the log, no more. -/
theorem bindHandle_frame (s : State) (subc : BitVec 3) (handle : Word) :
    s.bindHandle subc handle =
      { s with subs := (s.bindHandle subc handle).subs, bus := (s.bindHandle subc handle).bus } := by
  unfold State.bindHandle
  split <;> rfl

end bindHandle

/-- The state that the bind-object data word leaves. -/
theorem exec_bindObject (handle : Word) (s : State) :
    exec (.bindObject handle) s = .next { s with
      subs := (s.bindHandle (curChan s).burst.subc handle).subs
      bus := (s.bindHandle (curChan s).burst.subc handle).bus
      regs := bankSet 0 s.regs (regIndex s.cur (curChan s).burst.subc 0) handle
      chans := bankSet .init s.chans s.cur.toNat
        { curChan s with burst := { (curChan s).burst with count := 0, bind := false } } } := by
  rw [exec, execBindObject, bindHandle_frame]
  rfl

/-! ### Data words (R167, R170) -/

/-- A method of any `METHOD_MAP` is one of the method slot: the map moves methods about and adds none (R120, R121). -/
theorem encode_of_decodeMethodBy {ranges : List MethodRange} {m : BitVec 11} {d : Word} {i : Instr}
    (h : decodeMethodBy ranges m d = some i) : ∃ m', (encode i).1 = .method m' := by
  unfold decodeMethodBy at h
  split at h
  case h_2 => cases h
  case h_1 =>
    obtain ⟨r, hfind, rfl⟩ := Option.map_eq_some_iff.mp h
    have hr := List.mem_of_find?_eq_some hfind
    have hholds := List.find?_some hfind
    simp only [MethodRow.holds, Bool.and_eq_true, decide_eq_true_eq] at hholds
    rw [encode_make_data r hr]
    exact ⟨_, encode_make_slot r hr _ (List.mem_range.mpr (by omega))⟩

/-- What a method leaves of the puller: the channel in progress, the bindings, the registers, and of the current channel all but its
status (R167, R172). -/
structure PullerKept (s t : State) : Prop where
  cur : t.cur = s.cur
  subs : t.subs = s.subs
  regs : t.regs = s.regs
  chan : curChan t = { curChan s with pstate := (curChan t).pstate }

theorem PullerKept.refl (s : State) : PullerKept s s := ⟨rfl, rfl, rfl, rfl⟩

theorem PullerKept.trans {s t u : State} (h : PullerKept s t) (h' : PullerKept t u) : PullerKept s u where
  cur := h'.cur.trans h.cur
  subs := h'.subs.trans h.subs
  regs := h'.regs.trans h.regs
  chan := h'.chan.trans (by rw [h.chan])

theorem withIrq_pullerKept (s : State) (f : Irq → Irq) : PullerKept s (s.withIrq f) := ⟨rfl, rfl, rfl, rfl⟩

theorem suspend_pullerKept (s : State) (r : Wait) : PullerKept s (s.suspend r) :=
  ⟨rfl, rfl, rfl, by rw [curChan_suspend]⟩

theorem PipelineOnly.pullerKept {s t : State} (h : PipelineOnly s t) : PullerKept s t := by
  rw [h]; exact ⟨rfl, rfl, rfl, rfl⟩

/-- Of the methods only the two that wait touch the puller, and these the status alone. -/
theorem exec_pullerKept {i : Instr} {m : BitVec 11} {s t : State} (hm : (encode i).1 = .method m) (h : exec i s = .next t) :
    PullerKept s t := by
  cases hi : isPullerInstr i with
  | false => exact (exec_pipelineOnly i s hi t h).pullerKept
  | true =>
    cases i with
    | jump | call | increasing | nonincreasing | longNonincreasing | ret | oldJump | sliConditional | invalid | bindObject => cases hm
    | noOperation d =>
      simp only [exec, execNoOperation] at h
      split at h <;> cases h
      · exact .refl s
      · exact (withIrq_pullerKept ..).trans (suspend_pullerKept ..)
    | waitForVblank => cases h; exact suspend_pullerKept ..
    | _ => cases hi

/-- The state after the store of a data word in the register of its address (R167). -/
def storeWord (d : Word) (s : State) : State := s.setReg s.cur (curChan s).burst.subc (curChan s).burst.mthd d

/-- A method write stores its word; then its instruction runs, or nothing more happens (R122, R167). -/
theorem methodWrite_cases (d : Word) (s : State) :
    methodWrite d s = .next (storeWord d s) ∨
      ∃ i m, (encode i).1 = .method m ∧ methodWrite d s = exec i (storeWord d s) := by
  unfold methodWrite
  dsimp only
  split
  case isFalse => exact .inl rfl
  case isTrue =>
    split
    case h_1 i hi =>
      obtain ⟨m, hm⟩ := encode_of_decodeMethodBy hi
      exact .inr ⟨i, m, hm, rfl⟩
    case h_2 => exact .inl rfl

/-- A write through another class, or to an address that the map does not hold, stores its word only (R122, R167). -/
theorem methodWrite_stored {d : Word} {s : State}
    (h : (subAt s s.cur (curChan s).burst.subc).cls ≠ s.par.kelvinClass ∨
      decodeMethodBy s.par.tables.methodMap (curChan s).burst.mthd d = none) : methodWrite d s = .next (storeWord d s) := by
  unfold methodWrite
  dsimp only
  split
  case isFalse => rfl
  case isTrue hcls =>
    have hnone := h.resolve_left (absurd hcls)
    simp only [State.setReg_par, hnone]
    rfl

theorem methodWrite_pullerKept {d : Word} {s t : State} (h : methodWrite d s = .next t) : PullerKept (storeWord d s) t := by
  rcases methodWrite_cases d s with hstore | ⟨i, m, hm, hexec⟩
  · rw [hstore] at h; cases h; exact .refl _
  · exact exec_pullerKept hm (hexec ▸ h)

/-- A data word is a method write, then the burst moves on (R170). -/
theorem dataWord_next {d : Word} {s t : State} (h : dataWord d s = .next t) : ∃ u, PullerKept (storeWord d s) u ∧ t = advanceBurst u := by
  obtain ⟨u, hu, ht⟩ := andThen_next h
  cases ht
  exact ⟨u, methodWrite_pullerKept hu, rfl⟩

end Sys2Proof.Machine

section
open Sys2Proof Sys2Proof.Machine

/-- Settles O12: of the methods only the waits touch the puller, and these the status alone; the rest is the store before and the advance
after. -/
theorem dataWordBookkeeping : Obligations.DataWordBookkeeping := by
  intro d s
  refine ⟨fun t h => ?data, fun h => ?stored⟩
  case data =>
    obtain ⟨u, hu, rfl⟩ := dataWord_next h
    have hchan : curChan u = { curChan s with pstate := (curChan u).pstate } := hu.chan
    have hnext : curChan (advanceBurst u) = { curChan u with burst := nextBurst (curChan s).burst } := by
      rw [advanceBurst, curChan_setBurst, hchan]
    rw [hnext, hchan]
    refine ⟨hu.cur, rfl, rfl, nextBurst_eq _, ?_, hu.subs⟩
    rw [advanceBurst, State.setBurst_regs, hu.regs]
    exact setsAt_bankSet
  case stored => exact ⟨storeWord d s, methodWrite_stored h, rfl, setsAt_bankSet⟩

/-- Settles O5: the word is the encoding of what it decodes to, so its masked bits are the target. -/
theorem jumpsSetGet : Obligations.JumpsSetGet := by
  intro w s
  refine ⟨fun t h => ?jump, fun t h => ?call, fun t h => ?oldJump⟩
  case jump => rw [eq_of_decodeCommand h rfl]; exact setsCurChan_setGet s (target_eq_and t 1#2)
  case call => rw [eq_of_decodeCommand h rfl]; exact setsCurChan_setGet s (target_eq_and t 2#2)
  case oldJump => rw [eq_of_decodeCommand h rfl]; exact setsCurChan_setGet s (oldTarget_eq_and t 1#3 0#2)

/-- Settles O6: each header and the count word replace the burst of the current channel. -/
theorem headersOpenBursts : Obligations.HeadersOpenBursts := by
  intro mthd subc count c s
  refine ⟨?increasing, ?nonincreasing, ?long, ?count⟩
  case increasing => exact setsCurChan_setBurst s (openBurst_eq true mthd subc count)
  case nonincreasing => exact setsCurChan_setBurst s (openBurst_eq false mthd subc count)
  case long => exact setsCurChan_setBurst s rfl
  case count => exact setsCurChan_setBurst s (by rw [wordBits_eq_extractLsb'])

/-- Settles O7: each of the three raises its diagnostic on the state. -/
theorem ignoredCommandWords : Obligations.IgnoredCommandWords := fun _ _ s =>
  ⟨raisesOnly_raise s .unimplementedReturn, raisesOnly_raise s .unimplementedCommand, raisesOnly_raise s .badCommand⟩

/-- Settles O8: by the two outcomes of the lookup. -/
theorem bindObjectWord : Obligations.BindObjectWord := by
  intro h s
  refine ⟨_, exec_bindObject h s, rfl, setsAt_bankSet, setsAt_bankSet, fun o hfound => ?found, fun hnone => ?unknown⟩
  case found =>
    rw [bindHandle_found hfound]
    exact ⟨setsAt_bankSet, rfl⟩
  case unknown =>
    rw [bindHandle_unknown hnone]
    exact ⟨rfl, rfl⟩

/-- Settles O9: the fetch is a read of four bytes and a move of `GET`. -/
theorem fetchReadsRingWord : Obligations.FetchReadsRingWord := by
  intro s
  have hbus : (fetchWord s).2.bus = { s.bus with diag := s.bus.diag ++ readDiags (who s) 4 (fetchAddr s s.cur) } :=
    memRead_bus (who s) 4 (fetchAddr s s.cur) s.bus
  refine ⟨?word, rfl, ?get, by rw [hbus], by rw [hbus]⟩
  case word =>
    have hvalue : (fetchWord s).1.toNat = (memRead (who s) 4 (fetchAddr s s.cur) s.bus).1 % 2 ^ 32 := BitVec.toNat_ofNat ..
    have hlt : (memRead (who s) 4 (fetchAddr s s.cur) s.bus).1 < 2 ^ 32 := memRead_lt ..
    rw [hvalue, Nat.mod_eq_of_lt hlt, memRead_value]
  case get =>
    rw [← add_ofNat_eq]
    exact setsAt_bankSet

end
end

section
/-! PROOFS. What a puller step leaves of the other channels (R625), and what the moves of the agents do to a channel that waits (R172, R606,
R607, R629). -/

namespace Sys2Proof.Machine
open Sys2Proof

/-! ### The other channels -/

/-- The channel in progress stays, and so do the pointers, status, burst, bindings and registers of every other channel (R625). -/
structure OthersKept (s t : State) : Prop where
  cur : t.cur = s.cur
  chan : ∀ c, c ≠ s.cur → chanAt t c = chanAt s c
  sub : ∀ c, c ≠ s.cur → ∀ subc, subAt t c subc = subAt s c subc
  reg : ∀ c, c ≠ s.cur → ∀ subc m, regAt t c subc m = regAt s c subc m

theorem OthersKept.trans {s t u : State} (h : OthersKept s t) (h' : OthersKept t u) : OthersKept s u where
  cur := h'.cur.trans h.cur
  chan c hc := (h'.chan c (h.cur ▸ hc)).trans (h.chan c hc)
  sub c hc subc := (h'.sub c (h.cur ▸ hc) subc).trans (h.sub c hc subc)
  reg c hc subc m := (h'.reg c (h.cur ▸ hc) subc m).trans (h.reg c hc subc m)

/-- A state with the channels, bindings and registers of another keeps them of every channel. -/
theorem othersKept_of_fields {s t : State} (hcur : t.cur = s.cur) (hch : t.chans = s.chans) (hsub : t.subs = s.subs)
    (hreg : t.regs = s.regs) : OthersKept s t := by
  constructor <;> simp only [chanAt, subAt, regAt, hcur, hch, hsub, hreg, implies_true]

theorem OthersKept.refl (s : State) : OthersKept s s := othersKept_of_fields rfl rfl rfl rfl

theorem PipelineOnly.othersKept {s t : State} (h : PipelineOnly s t) : OthersKept s t := by
  rw [h]; exact othersKept_of_fields rfl rfl rfl rfl

theorem withIrq_othersKept (s : State) (f : Irq → Irq) : OthersKept s (s.withIrq f) := othersKept_of_fields rfl rfl rfl rfl

theorem setCur_othersKept (s : State) (c : Channel) : OthersKept s (s.setCur c) :=
  ⟨rfl, fun _ h => chanAt_setCur_other s c h, fun _ _ _ => rfl, fun _ _ _ _ => rfl⟩

theorem setReg_othersKept (s : State) (subc : BitVec 3) (m : BitVec 11) (d : Word) : OthersKept s (s.setReg s.cur subc m d) where
  cur := rfl
  chan _ _ := rfl
  sub _ _ _ := rfl
  reg c hc _ _ := by rw [regAt_setReg, if_neg fun h => hc h.1]

theorem bindHandle_othersKept (s : State) (subc : BitVec 3) (handle : Word) : OthersKept s (s.bindHandle subc handle) := by
  unfold State.bindHandle
  split
  case h_1 o _ =>
    refine ⟨rfl, fun _ _ => rfl, fun c hc subc' => ?_, fun _ _ _ _ => rfl⟩
    exact bankGet_set_other _ _ fun h => hc (subIndex_inj h).1
  case h_2 => exact othersKept_of_fields rfl rfl rfl rfl

/-- An instruction works on the current channel alone (R625). -/
theorem exec_othersKept {i : Instr} {s t : State} (h : exec i s = .next t) : OthersKept s t := by
  cases hi : isPullerInstr i with
  | false => exact (exec_pipelineOnly i s hi t h).othersKept
  | true =>
    cases i with
    | jump | call | oldJump | increasing | nonincreasing | longNonincreasing | waitForVblank => cases h; exact setCur_othersKept ..
    | ret | sliConditional | invalid => cases h; exact othersKept_of_fields rfl rfl rfl rfl
    | bindObject handle =>
      cases h
      have hbind := bindHandle_othersKept s (curChan s).burst.subc handle
      have hreg := hbind.trans (hbind.cur ▸ setReg_othersKept _ (curChan s).burst.subc 0 handle)
      exact hreg.trans (setCur_othersKept ..)
    | noOperation d =>
      simp only [exec, execNoOperation] at h
      split at h <;> cases h
      · exact .refl s
      · exact (withIrq_othersKept ..).trans (setCur_othersKept ..)
    | _ => cases hi

theorem dataWord_othersKept {d : Word} {s t : State} (h : dataWord d s = .next t) : OthersKept s t := by
  have hstore : OthersKept s (storeWord d s) := setReg_othersKept ..
  obtain ⟨u, hu, ht⟩ := andThen_next h
  cases ht
  refine OthersKept.trans ?_ (setCur_othersKept ..)
  rcases methodWrite_cases d s with hw | ⟨i, m, -, hw⟩
  · rw [hw] at hu; cases hu; exact hstore
  · exact hstore.trans (exec_othersKept (hw ▸ hu))

theorem processWord_othersKept {w : Word} {s t : State} (h : processWord w s = .next t) : OthersKept s t := by
  simp only [processWord] at h
  split at h
  · cases h; exact setCur_othersKept ..
  · split at h
    · exact exec_othersKept h
    · split at h
      · exact exec_othersKept h
      · exact dataWord_othersKept h

theorem fetchWord_othersKept (s : State) : OthersKept s (fetchWord s).2 := by
  have hbus (b : Bus) : OthersKept s { s with bus := b } := othersKept_of_fields rfl rfl rfl rfl
  exact (hbus _).trans (setCur_othersKept ..)

/-- A puller that is not enabled does nothing (R160). -/
theorem pullerStep_idle {s : State} {ch : BitVec 5} (h : enabled s ch = false) : pullerStep ch s = .next s := by
  rw [pullerStep, h]; rfl

/-- A puller step is that of an enabled channel and leaves the others, or it does nothing (R160, R625). -/
theorem pullerStep_cases {ch : BitVec 5} {s t : State} (h : pullerStep ch s = .next t) :
    enabled s ch = true ∧ OthersKept { s with cur := ch } t ∨ t = s := by
  cases he : enabled s ch with
  | false => rw [pullerStep_idle he] at h; cases h; exact .inr rfl
  | true =>
    rw [pullerStep, he] at h
    exact .inl ⟨rfl, (fetchWord_othersKept _).trans (processWord_othersKept h)⟩

/-! ### A channel that waits -/

theorem enabled_iff (s : State) (ch : BitVec 5) :
    enabled s ch = true ↔ (chanAt s ch).pstate = .run ∧ (chanAt s ch).get ≠ (chanAt s ch).put := by
  simp [enabled]

theorem chanAt_setChan_other (s : State) (x : Channel) {c ch : BitVec 5} (h : c ≠ ch) : chanAt (s.setChan ch x) c = chanAt s c := by
  rw [chanAt_setChan, if_neg h]

/-- A channel of a state in which every channel that waits for `r` is set to RUN (R606, R607). -/
theorem chanAt_of_resumeAll {s t : State} {r : Wait} (ht : t.chans = resumeAll r s.chans) (ch : BitVec 5) :
    chanAt t ch = if (chanAt s ch).pstate = .susp r then { chanAt s ch with pstate := .run } else chanAt s ch := by
  rw [chanAt, ht, bankGet_resumeAll _ _ _ ch.isLt]; rfl

/-- What the move `a` can do to a waiting channel `ch` of contents `c`, `t` being the state after it and `p` the parameters: nothing, its
resume event, or the host's write of one of its pointers (R172, R606, R607, R629). -/
inductive WaitingMove (p : Params) (ch : BitVec 5) (c : Channel) (t : State) : Option Agent → Prop where
  | kept (a : Option Agent) (h : chanAt t ch = c) : WaitingMove p ch c t a
  | vblank (hw : c.pstate = .susp .vblank) (h : chanAt t ch = { c with pstate := .run }) : WaitingMove p ch c t (some .vblank)
  | idle (v : Word) (hw : c.pstate = .susp .pgraphIdle) (hclear : t.irq.pgraphIntr &&& p.irqBits.notify = 0)
      (h : chanAt t ch = { c with pstate := .run }) : WaitingMove p ch c t (some (.mmioWrite (p.mmioBase + p.mmioMap.pgraphIntr) 4 v))
  | get (v : Word) (h : chanAt t ch = { c with get := v }) :
      WaitingMove p ch c t (some (.mmioWrite (p.mmioBase + windowOffset ch p.mmioMap.dmaGet) 4 v))
  | put (v : Word) (h : chanAt t ch = { c with put := v }) :
      WaitingMove p ch c t (some (.mmioWrite (p.mmioBase + windowOffset ch p.mmioMap.dmaPut) 4 v))

variable {s t : State} {ch : BitVec 5} {r : Wait}

/-- A puller move leaves a waiting channel, its own or another's (R172, R625). -/
theorem pullerStep_waiting {c : BitVec 5} (h : pullerStep c s = .next t) (hr : (chanAt s ch).pstate = .susp r) :
    chanAt t ch = chanAt s ch := by
  rcases pullerStep_cases h with ⟨he, hk⟩ | rfl
  · refine hk.chan ch ?_
    rintro rfl
    have hrun := ((enabled_iff _ _).mp he).1
    exact PState.noConfusion (hr.symm.trans hrun)
  · rfl

theorem vblankEvent_waiting : WaitingMove s.par ch (chanAt s ch) (vblankEvent s) (some .vblank) := by
  have h := chanAt_of_resumeAll (t := vblankEvent s) (by rw [vblankEvent]) ch
  split at h
  case isTrue hw => exact .vblank hw h
  case isFalse => exact .kept _ h

theorem mmioOffset_eq_iff {addr off : Word} : mmioOffset s addr = off ↔ addr = s.par.mmioBase + off := by
  rw [mmioOffset, BitVec.sub_eq_iff_eq_add, BitVec.add_comm]

/-- The write of `PGRAPH.intr` resumes the channels that wait for PGRAPH where it leaves the notify bit clear (R607, R612). -/
theorem resumeIdle_waiting {u : State} {p : Params} {c : Channel} (v : Word) (hp : u.par = p) (hc : chanAt u ch = c) :
    WaitingMove p ch c (resumeIdle u) (some (.mmioWrite (p.mmioBase + p.mmioMap.pgraphIntr) 4 v)) := by
  subst hp hc
  unfold resumeIdle
  split
  case isFalse => exact .kept _ rfl
  case isTrue hclear =>
    have h := chanAt_of_resumeAll (t := { u with chans := resumeAll .pgraphIdle u.chans }) (by dsimp only) ch
    split at h
    case isTrue hw => exact .idle v hw hclear h
    case isFalse => exact .kept _ h

/-- The host's store of an MMIO word: of the registers of the map only the interrupt register of PGRAPH and the pointers of the channel
itself reach it (R87, R610 to R613). -/
theorem mmioStore_waiting (addr v : Word) :
    WaitingMove s.par ch (chanAt s ch) (mmioStore (mmioOffset s addr) v s) (some (.mmioWrite addr 4 v)) := by
  have hreg := mmioReg_registerAt s.par.mmioMap (mmioOffset s addr)
  unfold mmioStore
  generalize mmioReg s.par.mmioMap (mmioOffset s addr) = reg at hreg ⊢
  cases reg with
  | pgraphIntr =>
    rw [mmioOffset_eq_iff.mp hreg]
    exact resumeIdle_waiting v rfl rfl
  | dmaPut c =>
    rcases eq_or_ne ch c with rfl | hc
    · rw [mmioOffset_eq_iff.mp hreg]
      exact .put v (chanAt_setChan_same ..)
    · exact .kept _ (chanAt_setChan_other s _ hc)
  | dmaGet c =>
    rcases eq_or_ne ch c with rfl | hc
    · rw [mmioOffset_eq_iff.mp hreg]
      exact .get v (chanAt_setChan_same ..)
    · exact .kept _ (chanAt_setChan_other s _ hc)
  | _ => exact .kept _ rfl

theorem hostMmioRead_waiting {addr : Word} {bytes : Nat} (h : hostMmioRead addr bytes s = .next t) : chanAt t ch = chanAt s ch := by
  unfold hostMmioRead at h
  split at h <;> cases h
  rfl

/-- What the move of an agent does to a waiting channel. -/
theorem agentStep_waiting {a : Agent} (h : agentStep a s = .next t) (hr : (chanAt s ch).pstate = .susp r) :
    WaitingMove s.par ch (chanAt s ch) t (some a) := by
  cases a with
  | puller c => exact .kept _ (pullerStep_waiting h hr)
  | vblank => cases h; exact vblankEvent_waiting
  | mmioWrite addr bytes v =>
    obtain ⟨rfl, rfl⟩ := hostMmioWrite_next h
    exact mmioStore_waiting addr v
  | mmioRead => exact .kept _ (hostMmioRead_waiting h)
  | memWrite | placeObject => cases h; exact .kept _ rfl

/-- What a step does to a waiting channel. -/
theorem step_waiting (h : step s = .next t) (hr : (chanAt s ch).pstate = .susp r) :
    WaitingMove s.par ch (chanAt s ch) t s.agenda.head? := by
  rcases step_cases h with ⟨a, rest, ha, h⟩ | ⟨-, ⟨c, h⟩ | rfl⟩
  · rw [ha]
    exact agentStep_waiting (s := { s with agenda := rest }) h hr
  · exact .kept _ (pullerStep_waiting h hr)
  · exact .kept _ rfl

end Sys2Proof.Machine

section
open Sys2Proof Sys2Proof.Machine

/-- Settles O16: by what a step can do to a waiting channel; a puller that is not enabled does nothing. -/
theorem onlyEventsResume : Obligations.OnlyEventsResume := by
  refine ⟨fun s t ch r h hr => ?waiting, enabled_iff, fun s ch rest ha he => ?move, fun s ha he => ?none⟩
  case waiting =>
    have hmove := step_waiting h hr
    generalize s.agenda.head? = a at hmove ⊢
    cases hmove with
    | kept _ h => rw [h]; exact ⟨rfl, fun _ => rfl, fun _ => rfl, .inl hr⟩
    | vblank hw h =>
      rw [h]
      exact ⟨rfl, fun _ => rfl, fun _ => rfl, .inr ⟨rfl, .inl ⟨PState.susp.inj (hr.symm.trans hw), rfl⟩⟩⟩
    | idle v hw hclear h =>
      rw [h]
      exact ⟨rfl, fun _ => rfl, fun _ => rfl, .inr ⟨rfl, .inr ⟨PState.susp.inj (hr.symm.trans hw), ⟨v, rfl⟩, hclear⟩⟩⟩
    | get v h => rw [h]; exact ⟨rfl, fun hno => absurd rfl (hno v), fun _ => rfl, .inl hr⟩
    | put v h => rw [h]; exact ⟨rfl, fun _ => rfl, fun hno => absurd rfl (hno v), .inl hr⟩
  case move =>
    rw [step, cycle, ha]
    exact pullerStep_idle he
  case none =>
    have hfirst : firstEnabled s = none := by simp [firstEnabled, he]
    rw [step, cycle, ha]
    simp only [hfirst]

end
end

section
/-! PROOFS. The clear (R210): what one merged store does, which bytes the clear of one pixel reaches, and what the clear of the whole
rectangle leaves at a byte and at a pixel whose bytes no other pixel shares. -/

namespace Sys2Proof.Machine
open Sys2Proof

/-! ### Counted loops -/

/-- An invariant that every turn of a loop keeps, the loop keeps. -/
theorem loopFrom_inv {α : Type} {P : α → Prop} {f : Nat → α → α} {n start : Nat}
    (hf : ∀ i a, start ≤ i → i < start + n → P a → P (f i a)) {a : α} (ha : P a) : P (loopFrom f n start a) := by
  induction n generalizing start a with
  | zero => exact ha
  | succ n ih =>
    exact ih (fun i a h h' => hf i a (by omega) (by omega)) (hf start a (le_refl _) (by omega) ha)

/-- Turn `i` of a loop whose other turns respect a relation: the relation holds up to that turn and from it on. -/
theorem loopFrom_turn {α : Type} {rel : α → α → Prop} (hr : ∀ a, rel a a) (ht : ∀ {a b c}, rel a b → rel b c → rel a c)
    {f : Nat → α → α} {n start i : Nat} (hi : start ≤ i) (hn : i < start + n)
    (hf : ∀ j a, start ≤ j → j < start + n → j ≠ i → rel a (f j a)) (a : α) :
    ∃ m, rel a m ∧ rel (f i m) (loopFrom f n start a) := by
  induction n generalizing start a with
  | zero => omega
  | succ n ih =>
    rcases eq_or_ne start i with rfl | hne
    · have hlater (j : Nat) (b : α) (h : start + 1 ≤ j) (h' : j < start + 1 + n) (hb : rel (f start a) b) : rel (f start a) (f j b) :=
        ht hb (hf j b (by omega) (by omega) (by omega))
      exact ⟨a, hr a, loopFrom_inv hlater (hr _)⟩
    · obtain ⟨m, hbefore, hafter⟩ :=
        ih (start := start + 1) (by omega) (by omega) (fun j b h h' => hf j b (by omega) (by omega)) (f start a)
      exact ⟨m, ht (hf start a (le_refl _) (by omega) hne) hbefore, hafter⟩

/-! ### Words in memory -/

/-- A word read depends on its own bytes alone. -/
theorem memReadWord_congr {q : Who} {n : Nat} {a : Word} {b b' : Bus}
    (h : ∀ c, inBytes c a n → memByte b'.mem c = memByte b.mem c) : (memReadWord q n a b').1 = (memReadWord q n a b).1 := by
  have hsum : (memRead q n a b').1 = (memRead q n a b).1 := by
    rw [memRead_value, memRead_value]
    refine Finset.sum_congr rfl fun k hk => ?_
    rw [byteOrZero, byteOrZero, h _ ⟨k, Finset.mem_range.mp hk, rfl⟩]
  exact congrArg (BitVec.ofNat 32) hsum

/-- The words of a bus are those of its memory. -/
theorem memReadWord_of_mem_eq {q : Who} {n : Nat} {a : Word} {b b' : Bus} (h : b'.mem = b.mem) :
    (memReadWord q n a b').1 = (memReadWord q n a b).1 := memReadWord_congr fun c _ => by rw [h]

theorem memReadWord_lt {q : Who} {n : Nat} (a : Word) (b : Bus) : (memReadWord q n a b).1.toNat < 256 ^ n :=
  (Nat.mod_le _ _).trans_lt (memRead_lt q n a b)

/-- A word that fits its `n` bytes is read back as it was written (R13, R83). -/
theorem memReadWord_memWrite {q : Who} {n : Nat} {a v : Word} (b : Bus) (hn : n ≤ 2 ^ 32) (h : inRange q n a)
    (hv : v.toNat < 256 ^ n) : (memReadWord q n a (memWrite q n a v.toNat b)).1 = v := by
  rw [memReadWord, memRead_memWrite q n a _ b hn h, Nat.mod_eq_of_lt hv, BitVec.ofNat_toNat, BitVec.setWidth_eq]

/-- A read within memory has no diagnostics (R84). -/
theorem readDiags_inRange {q : Who} {n : Nat} {a : Word} (h : inRange q n a) : readDiags q n a = [] := by
  rw [readDiags, List.map_eq_nil_iff, List.filter_eq_nil_iff]
  intro k hk
  simpa using h k (List.mem_range.mp hk)

theorem inRange_of_inBytes {q : Who} {n : Nat} {a : Word} (h : ∀ c, inBytes c a n → c.toNat < q.size) : inRange q n a :=
  fun k hk => h _ ⟨k, hk, rfl⟩

/-! ### A merged store

The colour half and the zeta half of the clear of a pixel are one operation: a word is read, merged with a new one under a mask, and
written back, where the data word selects the half and the buffer is supported. -/

/-- Where `on` holds, the word of `n` bytes at `a` takes the bits of `new` that `m` allows. -/
def mergeAt (on : Bool) (q : Who) (n : Nat) (a new m : Word) (b : Bus) : Bus :=
  if on then memWrite q n a (merge (memReadWord q n a b).1 new m).toNat (memReadWord q n a b).2 else b

/-- A merge under a mask that lies in `n` bytes does not leave them. -/
theorem merge_lt {old new m : Word} {n : Nat} (ho : old.toNat < 256 ^ n) (hm : m.toNat < 256 ^ n) :
    (merge old new m).toNat < 256 ^ n := by
  have hpow : 256 ^ n = 2 ^ (8 * n) := by rw [Nat.pow_mul]
  rw [hpow] at ho hm ⊢
  rw [merge, BitVec.toNat_or, BitVec.toNat_and, BitVec.toNat_and]
  exact Nat.or_lt_two_pow (Nat.and_le_left.trans_lt ho) (Nat.and_le_right.trans_lt hm)

section mergeAt
variable {on : Bool} {q : Who} {n : Nat} {a new m : Word}

/-- A byte that is not one of the word's reads as before. -/
theorem mergeAt_other {c : Word} (b : Bus) (h : ¬ (on = true ∧ inBytes c a n)) :
    memByte (mergeAt on q n a new m b).mem c = memByte b.mem c := by
  unfold mergeAt
  split
  case isTrue hon =>
    rw [memByte_memWrite_other _ _ _ _ _ _ fun k hk hc => h ⟨hon, k, hk, hc⟩, memReadWord_mem]
  case isFalse => rfl

/-- A merge within memory raises nothing (R84). -/
theorem mergeAt_diag (b : Bus) (h : on = true → inRange q n a) : (mergeAt on q n a new m b).diag = b.diag := by
  unfold mergeAt
  split
  case isTrue hon =>
    rw [memWrite_diag _ _ _ _ _ (h hon), memReadWord, memRead_bus, readDiags_inRange (h hon), List.append_nil]
  case isFalse => rfl

/-- The word after the merge. -/
theorem mergeAt_word (b : Bus) (hon : on = true) (hn : n ≤ 4) (h : inRange q n a) (hm : m.toNat < 256 ^ n) :
    (memReadWord q n a (mergeAt on q n a new m b)).1 = merge (memReadWord q n a b).1 new m := by
  rw [mergeAt, if_pos hon]
  exact memReadWord_memWrite _ (by omega) h (merge_lt (memReadWord_lt a b) hm)

end mergeAt

/-! ### The clear of one pixel -/

/-- `d[n]` (R12), which the statements take by division, is the bit that the clear tests. -/
theorem bitOf_eq_wordBit (d : Word) (n : Nat) : bitOf d n = wordBit d n := Nat.testBit_eq_decide_div_mod_eq

theorem clearsColor_eq (d : Word) : clearsColor d = (wordBits d 7 4 != 0) := by rw [wordBits_eq_extractLsb']; rfl

theorem clearsZeta_eq (d : Word) : clearsZeta d = (wordBits d 1 0 != 0) := by rw [wordBits_eq_extractLsb']; rfl

/-- The channel mask of the channels that the data word and the write masks both allow (R211). -/
def clearColorMask (s : State) (d : Word) : Word :=
  chanMask s.surf.colorFmt (wordBit d 4 && s.pix.cmaskR) (wordBit d 5 && s.pix.cmaskG) (wordBit d 6 && s.pix.cmaskB)
    (wordBit d 7 && s.pix.cmaskA)

/-- The colour half of the clear of pixel (x, y), where it is selected and supported. -/
def colorHalf (s : State) (d : Word) (x y : Nat) : Bus → Bus :=
  mergeAt (clearsColor d && colorOk s.surf) (who s) (colorBpp s.surf.colorFmt) (colorAddr s.surf x y)
    (packColor s.surf.colorFmt s.clear.color) (clearColorMask s d)

/-- The zeta half of the clear of pixel (x, y), where it is selected and supported. -/
def zetaHalf (s : State) (d : Word) (x y : Nat) : Bus → Bus :=
  mergeAt (clearsZeta d && zetaOk s.surf) (who s) (zetaBpp s.surf.zetaFmt) (zetaAddr s.surf x y) s.clear.zstencil
    (clearZetaMask s.surf s.pix d)

/-- The clear of pixel (x, y) by the registers of `s`. -/
def pixelClear (s : State) (d : Word) (x y : Nat) : Bus → Bus := clearPixel (who s) s.surf s.pix s.clear d x y

section pixelClear
variable {s : State} {d : Word} {x y : Nat} {a : Word}

theorem pixelClear_outside (b : Bus) (h : inClip s.surf x y = false) : pixelClear s d x y b = b := by
  simp [pixelClear, clearPixel, h]

theorem pixelClear_reached (b : Bus) (h : clearsPixel s x y) :
    pixelClear s d x y b = zetaHalf s d x y (colorHalf s d x y b) := by
  obtain ⟨-, -, -, -, hin⟩ := h
  rw [pixelClear, clearPixel, if_pos hin]
  simp only [colorHalf, clearColorMask, ← bitOf_eq_wordBit]
  rfl

theorem clearsColor_and_ok_iff : (clearsColor d && colorOk s.surf) = true ↔ wordBits d 7 4 ≠ 0 ∧ colorOk s.surf = true := by
  rw [clearsColor_eq, Bool.and_eq_true, bne_iff_ne]

theorem clearsZeta_and_ok_iff : (clearsZeta d && zetaOk s.surf) = true ↔ wordBits d 1 0 ≠ 0 ∧ zetaOk s.surf = true := by
  rw [clearsZeta_eq, Bool.and_eq_true, bne_iff_ne]

theorem clearsColorByte_iff :
    clearsColorByte s d x y a ↔
      (clearsColor d && colorOk s.surf) = true ∧ inBytes a (colorAddr s.surf x y) (colorBpp s.surf.colorFmt) := by
  rw [clearsColorByte, clearsColor_and_ok_iff, and_assoc]

theorem clearsZetaByte_iff :
    clearsZetaByte s d x y a ↔
      (clearsZeta d && zetaOk s.surf) = true ∧ inBytes a (zetaAddr s.surf x y) (zetaBpp s.surf.zetaFmt) := by
  rw [clearsZetaByte, clearsZeta_and_ok_iff, and_assoc]

theorem colorHalf_other (b : Bus) (h : ¬ clearsColorByte s d x y a) : memByte (colorHalf s d x y b).mem a = memByte b.mem a :=
  mergeAt_other b (clearsColorByte_iff.not.mp h)

theorem zetaHalf_other (b : Bus) (h : ¬ clearsZetaByte s d x y a) : memByte (zetaHalf s d x y b).mem a = memByte b.mem a :=
  mergeAt_other b (clearsZetaByte_iff.not.mp h)

/-- The clear of a pixel writes the pixel's own bytes of the selected, supported buffers, no others. -/
theorem pixelClear_other (b : Bus) (hxy : clearsPixel s x y) (hc : ¬ clearsColorByte s d x y a)
    (hz : ¬ clearsZetaByte s d x y a) : memByte (pixelClear s d x y b).mem a = memByte b.mem a := by
  rw [pixelClear_reached b hxy, zetaHalf_other _ hz, colorHalf_other b hc]

/-- The clear of a pixel within memory raises nothing (R84). -/
theorem pixelClear_diag (b : Bus) (hxy : clearsPixel s x y)
    (h : ∀ a, clearsColorByte s d x y a ∨ clearsZetaByte s d x y a → a.toNat < s.par.physSize) :
    (pixelClear s d x y b).diag = b.diag := by
  have hcolor (hon : (clearsColor d && colorOk s.surf) = true) :
      inRange (who s) (colorBpp s.surf.colorFmt) (colorAddr s.surf x y) :=
    inRange_of_inBytes fun a ha => h a (.inl (clearsColorByte_iff.mpr ⟨hon, ha⟩))
  have hzeta (hon : (clearsZeta d && zetaOk s.surf) = true) :
      inRange (who s) (zetaBpp s.surf.zetaFmt) (zetaAddr s.surf x y) :=
    inRange_of_inBytes fun a ha => h a (.inr (clearsZetaByte_iff.mpr ⟨hon, ha⟩))
  rw [pixelClear_reached b hxy]
  exact (mergeAt_diag _ hzeta).trans (mergeAt_diag b hcolor)

end pixelClear

/-! ### The words that the clear of one pixel leaves -/

theorem colorBpp_le (fmt : BitVec 4) : colorBpp fmt ≤ 4 := by
  unfold colorBpp; split_ifs <;> decide

theorem zetaBpp_le (fmt : BitVec 4) : zetaBpp fmt ≤ 4 := by
  unfold zetaBpp; split_ifs <;> decide

/-- A channel mask lies in the bytes of its format (R211, R583). -/
theorem chanMask_lt (fmt : BitVec 4) (r g b a : Bool) : (chanMask fmt r g b a).toNat < 256 ^ colorBpp fmt := by
  unfold chanMask colorBpp
  split_ifs
  · revert r g b; decide
  · revert b; decide
  · exact BitVec.isLt _

/-- The zeta mask lies in the bytes of its format (R210, R583). -/
theorem clearZetaMask_lt (t : Surface) (p : PixelState) (d : Word) :
    (clearZetaMask t p d).toNat < 256 ^ zetaBpp t.zetaFmt := by
  unfold clearZetaMask zetaBpp
  split_ifs
  · generalize (bitOf d 0 && p.depthWriteEn) = z
    revert z; decide
  · exact BitVec.isLt _

theorem clearZetaMask_z16 {t : Surface} (p : PixelState) (d : Word) (h : t.zetaFmt = 1) :
    clearZetaMask t p d = lane (wordBit d 0 && p.depthWriteEn) 0xFFFF := by
  rw [clearZetaMask, if_pos h, bitOf_eq_wordBit]

theorem clearZetaMask_z24s8 {t : Surface} (p : PixelState) (d : Word) (h : t.zetaFmt = 2) :
    clearZetaMask t p d =
      lane (wordBit d 0 && p.depthWriteEn) 0xFFFFFF00 ||| lane (wordBit d 1) (p.stencilWriteMask.setWidth 32) := by
  rw [clearZetaMask, if_neg (by rw [h]; decide), bitOf_eq_wordBit, bitOf_eq_wordBit]

section words
variable {s : State} {d : Word} {x y : Nat}

/-- The colour word after the clear of its pixel, where no colour byte of the pixel is a zeta byte of it. -/
theorem colorWord_pixelClear (b : Bus) (hxy : clearsPixel s x y) (hsel : wordBits d 7 4 ≠ 0) (hok : colorOk s.surf = true)
    (hrange : inRange (who s) (colorBpp s.surf.colorFmt) (colorAddr s.surf x y))
    (hown : ∀ a, clearsColorByte s d x y a → ¬ clearsZetaByte s d x y a) :
    colorWord (drawOf s) x y (pixelClear s d x y b) =
      merge (colorWord (drawOf s) x y b) (packColor s.surf.colorFmt s.clear.color) (clearColorMask s d) := by
  have hkept : colorWord (drawOf s) x y (zetaHalf s d x y (colorHalf s d x y b)) =
      colorWord (drawOf s) x y (colorHalf s d x y b) :=
    memReadWord_congr fun a ha => zetaHalf_other _ (hown a ⟨hsel, hok, ha⟩)
  rw [pixelClear_reached b hxy, hkept]
  exact mergeAt_word b (clearsColor_and_ok_iff.mpr ⟨hsel, hok⟩) (colorBpp_le _) hrange (chanMask_lt ..)

/-- The zeta word after the clear of its pixel, where no zeta byte of the pixel is a colour byte of it. -/
theorem zetaWord_pixelClear (b : Bus) (hxy : clearsPixel s x y) (hsel : wordBits d 1 0 ≠ 0) (hok : zetaOk s.surf = true)
    (hrange : inRange (who s) (zetaBpp s.surf.zetaFmt) (zetaAddr s.surf x y))
    (hown : ∀ a, clearsZetaByte s d x y a → ¬ clearsColorByte s d x y a) :
    zetaWord (drawOf s) x y (pixelClear s d x y b) =
      merge (zetaWord (drawOf s) x y b) s.clear.zstencil (clearZetaMask s.surf s.pix d) := by
  have hkept : zetaWord (drawOf s) x y (colorHalf s d x y b) = zetaWord (drawOf s) x y b :=
    memReadWord_congr fun a ha => colorHalf_other b (hown a ⟨hsel, hok, ha⟩)
  rw [pixelClear_reached b hxy, ← hkept]
  exact mergeAt_word _ (clearsZeta_and_ok_iff.mpr ⟨hsel, hok⟩) (zetaBpp_le _) hrange (clearZetaMask_lt ..)

end words

/-- A mask of no bits clears nothing. -/
theorem and_not_zero {w : Nat} (v : BitVec w) : v &&& ~~~(0 : BitVec w) = v := by simp

/-- A Z16 word merged under the clear's mask (R210). -/
theorem merge_z16 {old : Word} (new : Word) (z : Bool) (h : old.toNat < 2 ^ 16) :
    merge old new (lane z 0xFFFF) = if z then new &&& 0xFFFF else old := by
  cases z with
  | false =>
    rw [merge, lane, if_neg Bool.false_ne_true, and_not_zero]
    simp
  | true =>
    have hlow : old &&& 0xFFFF = old := by
      apply BitVec.eq_of_toNat_eq
      rw [BitVec.toNat_and]
      exact Nat.and_two_pow_sub_one_of_lt_two_pow h
    have hcleared : old &&& ~~~0xFFFF = 0 := by
      rw [← hlow, BitVec.and_assoc, show (0xFFFF &&& ~~~0xFFFF : Word) = 0 from rfl]
      exact BitVec.and_zero
    rw [merge, lane, if_pos rfl, hcleared]
    exact BitVec.zero_or

/-- A Z16 word has two bytes (R583). -/
theorem zetaWord_lt_of_z16 {r : Draw} {x y : Nat} {b : Bus} (h : r.surf.zetaFmt = 1) : (zetaWord r x y b).toNat < 2 ^ 16 := by
  have hsize : 256 ^ zetaBpp r.surf.zetaFmt = 2 ^ 16 := by rw [h]; decide
  exact hsize ▸ memReadWord_lt _ b

/-- A merge is a merge of each field. -/
theorem wordBits_merge (old new m : Word) {hi lo : Nat} (h : hi < 32) :
    wordBits (merge old new m) hi lo =
      (wordBits old hi lo &&& ~~~wordBits m hi lo) ||| (wordBits new hi lo &&& wordBits m hi lo) := by
  ext i hi
  have hi : lo + i < 32 := by omega
  simp [wordBits_eq_extractLsb', merge, hi]

/-- The depth field of the clear's mask of a Z24S8 word. -/
theorem wordBits_z24s8Mask_depth (z st : Bool) (m : BitVec 8) :
    wordBits (lane z 0xFFFFFF00 ||| lane st (m.setWidth 32)) 31 8 = if z then BitVec.allOnes 24 else 0 := by
  revert m z st; decide

/-- The stencil field of the clear's mask of a Z24S8 word. -/
theorem wordBits_z24s8Mask_stencil (z st : Bool) (m : BitVec 8) :
    wordBits (lane z 0xFFFFFF00 ||| lane st (m.setWidth 32)) 7 0 = if st then m else 0 := by
  revert m z st; decide

/-- A Z24S8 word merged under the clear's mask (R210): depth and stencil apart. -/
theorem merge_z24s8 (old new : Word) (z st : Bool) (m : BitVec 8) :
    wordBits (merge old new (lane z 0xFFFFFF00 ||| lane st (m.setWidth 32))) 31 8 = wordBits (if z then new else old) 31 8 ∧
      wordBits (merge old new (lane z 0xFFFFFF00 ||| lane st (m.setWidth 32))) 7 0 =
        (wordBits old 7 0 &&& ~~~(if st then m else 0)) ||| (wordBits new 7 0 &&& (if st then m else 0)) := by
  rw [wordBits_merge _ _ _ (by decide), wordBits_merge _ _ _ (by decide), wordBits_z24s8Mask_depth, wordBits_z24s8Mask_stencil]
  refine ⟨?_, rfl⟩
  cases z with
  | false =>
    rw [if_neg Bool.false_ne_true, if_neg Bool.false_ne_true, and_not_zero]
    simp
  | true =>
    rw [if_pos rfl, if_pos rfl, BitVec.not_allOnes]
    simp only [BitVec.and_zero, BitVec.zero_or, BitVec.and_allOnes]

/-! ### The clear of the rectangle -/

/-- The clear of row `y` of the rectangle. -/
def rowClear (s : State) (d : Word) (y : Nat) : Bus → Bus :=
  loopFrom (fun x => pixelClear s d x y) (s.clear.x1.toNat + 1 - s.clear.x0.toNat) s.clear.x0.toNat

/-- The clear of the rectangle, row by row (R210). -/
def rectClear (s : State) (d : Word) : Bus → Bus :=
  loopFrom (rowClear s d) (s.clear.y1.toNat + 1 - s.clear.y0.toNat) s.clear.y0.toNat

/-- CLEAR_SURFACE clears the rectangle after at most one diagnostic of each kind, none where the selected buffers are supported (R585). -/
theorem clearSurface_eq_rectClear (s : State) (d : Word) :
    ∃ b, b.mem = s.bus.mem ∧ clearSurface (who s) s.surf s.pix s.clear d s.bus = rectClear s d b ∧
      ((wordBits d 7 4 ≠ 0 → colorOk s.surf = true) → (wordBits d 1 0 ≠ 0 → zetaOk s.surf = true) → b = s.bus) := by
  refine ⟨_, ?_, rfl, fun hc hz => ?_⟩
  · split_ifs <;> rfl
  · have hcolor : (clearsColor d && !colorOk s.surf) = false := by
      rw [clearsColor_eq]; simpa using hc
    have hzeta : (clearsZeta d && !zetaOk s.surf) = false := by
      rw [clearsZeta_eq]; simpa using hz
    rw [hcolor, hzeta]; rfl

section rectClear
variable {s : State} {d : Word}

/-- What the clear of every pixel that the clear reaches keeps, the clear of the rectangle keeps. -/
theorem rectClear_inv {P : Bus → Prop} (h : ∀ x y b, clearsPixel s x y → P b → P (pixelClear s d x y b)) {b : Bus} (hb : P b) :
    P (rectClear s d b) := by
  refine loopFrom_inv (fun y b hy0 hy1 hb => ?row) hb
  refine loopFrom_inv (fun x b hx0 hx1 hb => ?pixel) hb
  cases hin : inClip s.surf x y with
  | false => rwa [pixelClear_outside b hin]
  | true => exact h x y b ⟨hx0, by omega, hy0, by omega, hin⟩ hb

/-- The bytes of `B` read as before. -/
def KeepsBytes (B : Word → Prop) (b b' : Bus) : Prop := ∀ a, B a → memByte b'.mem a = memByte b.mem a

theorem KeepsBytes.refl (B : Word → Prop) (b : Bus) : KeepsBytes B b b := fun _ _ => rfl

theorem KeepsBytes.trans {B : Word → Prop} {a b c : Bus} (h : KeepsBytes B a b) (h' : KeepsBytes B b c) : KeepsBytes B a c :=
  fun x hx => (h' x hx).trans (h x hx)

/-- The clear writes no byte of `B` but at pixel (x, y). -/
def WrittenOnlyAt (s : State) (d : Word) (B : Word → Prop) (x y : Nat) : Prop :=
  ∀ a, B a → ∀ x' y', clearsPixel s x' y' → clearsColorByte s d x' y' a ∨ clearsZetaByte s d x' y' a → x' = x ∧ y' = y

/-- The clear of any other pixel of the rectangle keeps these bytes. -/
theorem WrittenOnlyAt.keepsBytes {B : Word → Prop} {x y x' y' : Nat} (h : WrittenOnlyAt s d B x y) (b : Bus)
    (hx0 : s.clear.x0.toNat ≤ x') (hx1 : x' ≤ s.clear.x1.toNat) (hy0 : s.clear.y0.toNat ≤ y') (hy1 : y' ≤ s.clear.y1.toNat)
    (hne : ¬ (x' = x ∧ y' = y)) : KeepsBytes B b (pixelClear s d x' y' b) := by
  intro a ha
  cases hin : inClip s.surf x' y' with
  | false => rw [pixelClear_outside b hin]
  | true =>
    have hxy : clearsPixel s x' y' := ⟨hx0, hx1, hy0, hy1, hin⟩
    have hnot := mt (h a ha x' y' hxy) hne
    exact pixelClear_other b hxy (hnot ∘ .inl) (hnot ∘ .inr)

/-- The clear of the rectangle, seen from bytes that no pixel but (x, y) writes: they come to the clear of that pixel as they were, and
stay as it leaves them. -/
theorem rectClear_bytes {B : Word → Prop} {x y : Nat} (hxy : clearsPixel s x y) (hB : WrittenOnlyAt s d B x y) (b : Bus) :
    ∃ m, KeepsBytes B b m ∧ KeepsBytes B (pixelClear s d x y m) (rectClear s d b) := by
  obtain ⟨hx0, hx1, hy0, hy1, -⟩ := hxy
  have hrow (y' : Nat) (b : Bus) (h0 : s.clear.y0.toNat ≤ y') (h1 : y' < s.clear.y0.toNat + (s.clear.y1.toNat + 1 - s.clear.y0.toNat))
      (hne : y' ≠ y) : KeepsBytes B b (rowClear s d y' b) :=
    loopFrom_inv (fun x' c hx0 hx1 hc => hc.trans (hB.keepsBytes c hx0 (by omega) h0 (by omega) fun h => hne h.2)) (.refl B b)
  have hpixel (x' : Nat) (b : Bus) (h0 : s.clear.x0.toNat ≤ x')
      (h1 : x' < s.clear.x0.toNat + (s.clear.x1.toNat + 1 - s.clear.x0.toNat)) (hne : x' ≠ x) :
      KeepsBytes B b (pixelClear s d x' y b) := hB.keepsBytes b h0 (by omega) hy0 hy1 fun h => hne h.1
  obtain ⟨m, hbefore, hafter⟩ := loopFrom_turn (.refl B) .trans hy0 (by omega) hrow b
  obtain ⟨m', hbefore', hafter'⟩ := loopFrom_turn (.refl B) .trans hx0 (by omega) hpixel m
  exact ⟨m', hbefore.trans hbefore', hafter'.trans hafter⟩

/-- The same of a word: its value before the clear is that before the clear of its pixel, and its value after is that after it. -/
theorem rectClear_word {q : Who} {n x y : Nat} {a : Word} (hxy : clearsPixel s x y) (hB : WrittenOnlyAt s d (inBytes · a n) x y)
    (b : Bus) :
    ∃ m, (memReadWord q n a m).1 = (memReadWord q n a b).1 ∧
      (memReadWord q n a (rectClear s d b)).1 = (memReadWord q n a (pixelClear s d x y m)).1 := by
  obtain ⟨m, hbefore, hafter⟩ := rectClear_bytes hxy hB b
  exact ⟨m, memReadWord_congr hbefore, memReadWord_congr hafter⟩

/-- The colour word of a pixel after the clear, where the pixel's colour bytes are its own. -/
theorem colorWord_rectClear {x y : Nat} (b : Bus) (hxy : clearsPixel s x y) (hsel : wordBits d 7 4 ≠ 0) (hok : colorOk s.surf = true)
    (hrange : inRange (who s) (colorBpp s.surf.colorFmt) (colorAddr s.surf x y)) (halone : colorAlone s d x y) :
    colorWord (drawOf s) x y (rectClear s d b) =
      merge (colorWord (drawOf s) x y b) (packColor s.surf.colorFmt s.clear.color) (clearColorMask s d) := by
  have hB : WrittenOnlyAt s d (inBytes · (colorAddr s.surf x y) (colorBpp s.surf.colorFmt)) x y := by
    intro a ha x' y' hxy' hbyte
    obtain ⟨hcolor, hzeta⟩ := halone a ⟨hsel, hok, ha⟩ x' y' hxy'
    exact hcolor (hbyte.resolve_right hzeta)
  obtain ⟨m, hbefore, hafter⟩ := rectClear_word (q := who s) hxy hB b
  have hpixel := colorWord_pixelClear m hxy hsel hok hrange fun a ha => (halone a ha x y hxy).2
  rw [← show colorWord (drawOf s) x y m = colorWord (drawOf s) x y b from hbefore, ← hpixel]
  exact hafter

/-- The zeta word of a pixel after the clear, where the pixel's zeta bytes are its own. -/
theorem zetaWord_rectClear {x y : Nat} (b : Bus) (hxy : clearsPixel s x y) (hsel : wordBits d 1 0 ≠ 0) (hok : zetaOk s.surf = true)
    (hrange : inRange (who s) (zetaBpp s.surf.zetaFmt) (zetaAddr s.surf x y)) (halone : zetaAlone s d x y) :
    zetaWord (drawOf s) x y (rectClear s d b) =
      merge (zetaWord (drawOf s) x y b) s.clear.zstencil (clearZetaMask s.surf s.pix d) := by
  have hB : WrittenOnlyAt s d (inBytes · (zetaAddr s.surf x y) (zetaBpp s.surf.zetaFmt)) x y := by
    intro a ha x' y' hxy' hbyte
    obtain ⟨hzeta, hcolor⟩ := halone a ⟨hsel, hok, ha⟩ x' y' hxy'
    exact hzeta (hbyte.resolve_left hcolor)
  obtain ⟨m, hbefore, hafter⟩ := rectClear_word (q := who s) hxy hB b
  have hpixel := zetaWord_pixelClear m hxy hsel hok hrange fun a ha => (halone a ha x y hxy).2
  rw [← show zetaWord (drawOf s) x y m = zetaWord (drawOf s) x y b from hbefore, ← hpixel]
  exact hafter

/-- A byte that the clear writes at no pixel reads as before. -/
theorem rectClear_other {a : Word} (b : Bus) (ha : ¬ clearedByte s d a) : memByte (rectClear s d b).mem a = memByte b.mem a :=
  rectClear_inv (P := fun c => memByte c.mem a = memByte b.mem a) (fun x y c hxy hc =>
    (pixelClear_other c hxy (fun h => ha ⟨x, y, hxy, .inl h⟩) fun h => ha ⟨x, y, hxy, .inr h⟩).trans hc) rfl

/-- A clear within memory raises nothing (R84). -/
theorem rectClear_diag (b : Bus) (h : ∀ a, clearedByte s d a → a.toNat < s.par.physSize) : (rectClear s d b).diag = b.diag :=
  rectClear_inv (P := fun c => c.diag = b.diag) (fun x y c hxy hc =>
    (pixelClear_diag c hxy fun a ha => h a ⟨x, y, hxy, ha⟩).trans hc) rfl

end rectClear

end Sys2Proof.Machine

section
open Sys2Proof Sys2Proof.Machine

/-- Settles O25: only the bus changes, and the clear of the rectangle keeps a byte that it writes at no pixel. -/
theorem clearSurfaceCompletes : Obligations.ClearSurfaceCompletes := by
  intro d s
  obtain ⟨b, hmem, hrect, -⟩ := clearSurface_eq_rectClear s d
  refine ⟨_, rfl, rfl, fun a ha => ?_⟩
  rw [hrect, rectClear_other b ha, hmem]

/-- Settles O26: no other pixel writes a byte of (x, y), so its words after the clear are those that its own clear makes of the words
before; a clear of supported buffers within memory raises nothing at its start nor at any pixel. -/
theorem clearWritesPixel : Obligations.ClearWritesPixel := by
  intro d s
  obtain ⟨b, hmem, hrect, hsilent⟩ := clearSurface_eq_rectClear s d
  refine ⟨_, rfl, fun x y hxy hsel hok hrange halone => ?color, fun x y hxy hsel hok hrange halone => ?zeta, fun hc hz hin => ?silent⟩
  case color =>
    have hold : colorWord (drawOf s) x y b = colorWord (drawOf s) x y s.bus := memReadWord_of_mem_eq hmem
    rw [hrect, colorWord_rectClear b hxy hsel hok hrange halone, hold]
    rfl
  case zeta =>
    have hold : zetaWord (drawOf s) x y b = zetaWord (drawOf s) x y s.bus := memReadWord_of_mem_eq hmem
    rw [hrect, zetaWord_rectClear b hxy hsel hok hrange halone, hold]
    refine ⟨fun hfmt => ?z16, fun hfmt => ?z24s8⟩
    case z16 =>
      have hlt : (zetaWord (drawOf s) x y s.bus).toNat < 2 ^ 16 := zetaWord_lt_of_z16 hfmt
      rw [clearZetaMask_z16 s.pix d hfmt]
      exact merge_z16 s.clear.zstencil _ hlt
    case z24s8 =>
      rw [clearZetaMask_z24s8 s.pix d hfmt]
      exact merge_z24s8 ..
  case silent => rw [hrect, hsilent hc hz, rectClear_diag s.bus hin]

end
end

section
/-! PROOFS. The transform state, the upload of programs and constants and their cursors (R280 to R282, R300 to R305). -/

namespace Sys2Proof.Machine
open Sys2Proof

/-! ### Components of a vector (R14) -/

/-- A component index is one of four. -/
theorem component_cases (k : BitVec 2) : k = 0 ∨ k = 1 ∨ k = 2 ∨ k = 3 := by revert k; decide

/-- What a write of one component leaves at each. -/
theorem Vec4.get_set (v : Vec4) (k m : BitVec 2) (x : Word) :
    Vec4.get (Vec4.set v k x) m = if m = k then x else Vec4.get v m := by
  rcases component_cases k with rfl | rfl | rfl | rfl <;> rcases component_cases m with rfl | rfl | rfl | rfl <;> rfl

/-- The constants after one component of one is replaced (R281, R282, R301). -/
theorem setConst_get (u : VProg) (i : Nat) (k : BitVec 2) (d : Word) (n : Nat) (m : BitVec 2) :
    Vec4.get (bankGet .zero (setConst u i k d).vpc n) m =
      if n = i ∧ m = k then d else Vec4.get (bankGet .zero u.vpc n) m := by
  rw [setConst, bankGet_set]
  split
  case isTrue h => subst h; rw [Vec4.get_set]; simp
  case isFalse h => rw [if_neg fun hn => h hn.1]

/-! ### Cursors (R300, R301) -/

/-- The cursor of the instruction or constant moves on, modulo 256, after the last of its four words. -/
theorem carry_toNat (c : BitVec 2) (l : BitVec 8) :
    (if c = 3 then l + 1 else l).toNat = if c.toNat = 3 then (l.toNat + 1) % 256 else l.toNat := by
  have h : c = 3 ↔ c.toNat = 3 := BitVec.toNat_inj.symm
  simp only [h]
  split
  · exact BitVec.toNat_add ..
  · rfl

/-! ### Program words (R45, R300) -/

/-- Words of instructions lie apart: four to each. -/
theorem vpiIndex_inj {i j n m : Nat} (hn : n < 4) (hm : m < 4) : 4 * i + n = 4 * j + m ↔ i = j ∧ n = m := by omega

/-- The instruction memory after one word is uploaded (R300). -/
theorem vpiAt_uploaded (u : VProg) (d : Word) {i n : Nat} (hn : n < 4) :
    vpiAt (nextLoad { u with vpi := bankSet 0 u.vpi (4 * u.load.toNat + u.word.toNat) d }) i n =
      if i = u.load.toNat ∧ n = u.word.toNat then d else vpiAt u i n := by
  simp only [vpiAt, nextLoad, bankGet_set, vpiIndex_inj hn u.word.isLt]

/-! ### TRANSFORM_CONSTANT (R301) -/

section transformConstant
variable {s : State} (j : BitVec 5) (d : Word)

theorem exec_transformConstant_stored (h : s.vp.cLoad.toNat < 192) :
    exec (.transformConstant j d) s = .next { s with vp := nextConst (setConst s.vp s.vp.cLoad.toNat s.vp.cWord d) } := if_pos h

theorem exec_transformConstant_dropped (h : ¬ s.vp.cLoad.toNat < 192) :
    exec (.transformConstant j d) s = .next ({ s with vp := nextConst s.vp }.raise .constOor) := if_neg h

end transformConstant

/-! ### Control fields -/

/-- The mode field names the program mode (R304). -/
theorem extractLsb'_eq_two (d : Word) : decide (d.extractLsb' 0 2 = 2#2) = decide (d.toNat % 4 = 2) := by
  simp [← BitVec.toNat_inj]

/-- The low byte of a word. -/
theorem byteOf_zero (d : Word) : byteOf d 0 = wordBits d 7 0 := (wordBits_eq_extractLsb' d 7 0).symm

end Sys2Proof.Machine

section
open Sys2Proof Sys2Proof.Machine

/-- Settles O40: each method is one write of a bank, a component or a cursor; TRANSFORM_CONSTANT by whether its cursor is in range. -/
theorem transformAndProgramMethods : Obligations.TransformAndProgramMethods := by
  refine ⟨fun k c d s => ⟨?proj, ?modelview, ?inverse, ?composite, ?offset, ?scale⟩,
    fun j d s => ⟨?program, ?constant, ?load, ?cload, ?mode, ?start⟩⟩
  case proj => exact ⟨_, rfl, rfl, setsAt_bankSet⟩
  case modelview => exact ⟨_, rfl, rfl, setsAt_bankSet⟩
  case inverse => exact ⟨_, rfl, rfl, setsAt_bankSet⟩
  case composite => exact ⟨_, rfl, rfl, setsAt_bankSet⟩
  case offset => exact ⟨_, _, rfl, rfl, fun m => Vec4.get_set .., setsAt_bankSet, fun m => Vec4.get_set ..⟩
  case scale => exact ⟨_, _, rfl, rfl, fun m => Vec4.get_set .., setsAt_bankSet, fun m => Vec4.get_set ..⟩
  case program => exact ⟨_, rfl, rfl, fun i n hn => vpiAt_uploaded s.vp d hn, BitVec.toNat_add .., carry_toNat ..⟩
  case constant =>
    by_cases h : s.vp.cLoad.toNat < 192
    · refine ⟨_, exec_transformConstant_stored j d h, ?_, BitVec.toNat_add .., carry_toNat .., fun n m => ?_, ?_⟩
      · rfl
      · simp only [h, true_and]; exact setConst_get s.vp s.vp.cLoad.toNat s.vp.cWord d n m
      · simp [h]
    · refine ⟨_, exec_transformConstant_dropped j d h, rfl, BitVec.toNat_add .., carry_toNat .., fun n m => ?_, ?_⟩
      · rw [if_neg fun hn => h hn.1]; rfl
      · rw [if_neg h]; rfl
  case load => rw [← byteOf_zero]; rfl
  case cload => rw [← byteOf_zero]; rfl
  case mode => rw [← extractLsb'_eq_two]; rfl
  case start => rw [← byteOf_zero]; rfl

end
end

section
/-! PROOFS. The methods that store in the vertex arrays and in the persistent vertex, and BEGIN_END (R250, R251, R256 to R260, R270). -/

namespace Sys2Proof.Machine
open Sys2Proof

/-! ### Vertex arrays (R250, R251) -/

theorem setsSlot_setVaOffset (s : State) (n : Nat) (d : Word) :
    setsSlot (.next { s with va := setVaOffset n d s.va }) s n { slotAt s.va n with offset := d } s.va.ibufN :=
  ⟨_, rfl, rfl, setsAt_bankSet⟩

theorem setsSlot_setVaFormat (s : State) (n : Nat) (d : Word) :
    setsSlot (.next { s with va := setVaFormat n d s.va }) s n
      { slotAt s.va n with type := wordBits d 3 0, size := wordBits d 7 4, stride := wordBits d 31 8 } 0 := by
  simp only [wordBits_eq_extractLsb']
  exact ⟨_, rfl, rfl, setsAt_bankSet⟩

/-! ### The persistent vertex (R256 to R260) -/

/-- The state `t` is `s` with entry `n` of the persistent vertex, and nothing else, replaced by `v` (R42). -/
def StoresAttr (s : State) (n : Nat) (v : Vec4) (t : State) : Prop :=
  t = { s with pvtx := t.pvtx } ∧ setsAt .zero s.pvtx t.pvtx n v

theorem StoresAttr.setsAttr {s t : State} {n : Nat} {v : Vec4} (h : StoresAttr s n v t) : setsAttr (.next t) s n v :=
  ⟨t, rfl, h⟩

theorem setAttrVec_stores (s : State) (n : Nat) (v : Vec4) : StoresAttr s n v (s.setAttrVec n v) := ⟨rfl, setsAt_bankSet⟩

theorem setAttr_stores (s : State) (n : Nat) (c : BitVec 2) (d : Word) :
    StoresAttr s n (Vec4.set (attr s n) c d) (s.setAttr n c d) := setAttrVec_stores s n _

/-- One component more of an entry that was stored. -/
theorem StoresAttr.setAttr {s t : State} {n : Nat} {v : Vec4} (h : StoresAttr s n v t) (c : BitVec 2) (d : Word) :
    StoresAttr s n (Vec4.set v c d) (t.setAttr n c d) := by
  obtain ⟨hframe, hset⟩ := h
  refine ⟨?frame, fun m => ?set⟩
  case frame => rw [hframe]; rfl
  case set =>
    have hold : bankGet .zero t.pvtx n = v := by rw [hset n, if_pos rfl]
    rw [State.setAttr_pvtx, bankGet_set, hold, hset m]
    split <;> rfl

/-- A push to another entry than 0 emits nothing. -/
theorem StoresAttr.notEmitted {s t : State} {n : BitVec 4} {v : Vec4} (h : StoresAttr s n.toNat v t) (hn : n ≠ 0) :
    Machine.setsAttr (emitWhen (decide (n = 0)) t) s n.toNat v := by
  rw [decide_eq_false hn]; exact h.setsAttr

theorem emitWhen_component {n : BitVec 4} {c : BitVec 2} (h : n ≠ 0 ∨ c ≠ 3) (s : State) :
    emitWhen (decide (n = 0) && decide (c = 3)) s = .next s := by
  rw [← Bool.decide_and, decide_eq_false (by tauto)]; rfl

theorem shortLo_eq (d : Word) : shortLo d = fOfInt (wordBits d 15 0).toInt := by rw [shortLo, lo16_eq_wordBits]

theorem shortHi_eq (d : Word) : shortHi d = fOfInt (wordBits d 31 16).toInt := by rw [shortHi, hi16_eq_wordBits]

/-- The four bytes of a word as normalised components (R260). -/
theorem from8_bytes (d : Word) :
    (⟨from8 (byteOf d 0), from8 (byteOf d 1), from8 (byteOf d 2), from8 (byteOf d 3)⟩ : Vec4) =
      ⟨from8 (wordBits d 7 0), from8 (wordBits d 15 8), from8 (wordBits d 23 16), from8 (wordBits d 31 24)⟩ := by
  simp only [wordBits_eq_extractLsb']; rfl

/-! ### BEGIN_END (R270, R390) -/

/-- The topology a begin stores, as the number it is (R270). -/
theorem beginType_eq (d : Word) : beginType d = if d.toNat ≤ 10 then BitVec.ofNat 4 d.toNat else 15 := by
  rw [beginType, BitVec.extractLsb', Nat.shiftRight_zero]

/-- The pixel shader by the number of stages (R390). -/
theorem selectShader_eq (s : State) :
    selectShader s = if 1 ≤ s.cmb.stages.toNat then .combiner else if (texUnit s.tex 0).enable then .tex0 else .flat := by
  have h : s.cmb.stages ≠ 0 ↔ 1 ≤ s.cmb.stages.toNat := by
    rw [Nat.one_le_iff_ne_zero, Ne, ← BitVec.toNat_inj]; rfl
  simp only [selectShader, h]
  rfl

end Sys2Proof.Machine

section
open Sys2Proof Sys2Proof.Machine

/-- Settles O47: every method is one of the two writes of a slot. -/
theorem vertexArrayMethods : Obligations.VertexArrayMethods := by
  intro d s
  have off (n : Nat) := setsSlot_setVaOffset s n d
  have fmt (n : Nat) := setsSlot_setVaFormat s n d
  exact ⟨off 0, off 1, off 2, off 3, off 4, off 5, off 6, off 7, off 8, off 9, off 10, off 11, off 12, off 13, off 14, off 15,
    fmt 0, fmt 1, fmt 2, fmt 3, fmt 4, fmt 5, fmt 6, fmt 7, fmt 8, fmt 9, fmt 10, fmt 11, fmt 12, fmt 13, fmt 14, fmt 15⟩

/-- Settles O49: each stores components of its entry, and only a push to entry 0 is followed by an emission. -/
theorem vertexPushStores : Obligations.VertexPushStores := by
  intro n c d s
  have one (n : Nat) (c : BitVec 2) := (setAttr_stores s n c d).setsAttr
  have vec (v : Vec4) := setAttrVec_stores s n.toNat v
  dsimp only
  simp only [← shortLo_eq, ← shortHi_eq, ← from8_bytes]
  refine ⟨one 0 0, one 0 1, one 0 0, one 0 1, one 0 2, one n.toNat 0, (vec _).setsAttr, fun h => ?data2f, fun h => ?data2s,
    fun h => ?data4s, fun h => ?data4ub, fun h => ?data4f⟩
  case data2f => exact (((setAttr_stores s n.toNat 1 d).setAttr 2 0).setAttr 3 fOne).notEmitted h
  case data2s => exact (vec _).notEmitted h
  case data4s => exact (vec _).notEmitted h
  case data4ub => exact (vec _).notEmitted h
  case data4f => exact ⟨_, _, emitWhen_component h _, rfl, setsAt_bankSet, fun k => Vec4.get_set ..⟩

/-- Settles O53: by whether the word is 0, and whether it is a topology. -/
theorem beginEndPrimitive : Obligations.BeginEndPrimitive := by
  intro d s
  refine ⟨rfl, fun hd => ?_⟩
  have hexec : exec (.beginEnd d) s = execBeginEnd d s := rfl
  rw [hexec, execBeginEnd, if_neg hd, beginType_eq, selectShader_eq]
  by_cases h : d.toNat ≤ 10
  · simp only [if_pos h, if_neg (Nat.not_lt.mpr h), List.append_nil]
  · simp only [if_neg h, if_pos (Nat.lt_of_not_le h)]
    rfl

end
end

section
/-! PROOFS. The attributes of a vertex of the arrays: the value of each component by type and size, and which of the 16 slots are read
(R252, R254). -/

namespace Sys2Proof.Machine
open Sys2Proof

/-! ### Reads that follow reads -/

/-- The value of a read is that of memory, whatever the log. -/
theorem memRead_of_mem_eq (q : Who) (n : Nat) (a : Word) {b b' : Bus} (h : b'.mem = b.mem) :
    (memRead q n a b').1 = (memRead q n a b).1 := by
  simp only [memRead_value, byteOrZero_congr q h]

theorem Vec4.ext_get {v w : Vec4} (h : ∀ k, Vec4.get v k = Vec4.get w k) : v = w := by
  obtain ⟨x, y, z, u⟩ := v
  obtain ⟨x', y', z', u'⟩ := w
  exact congr (congr (congr (congrArg _ (h 0)) (h 1)) (h 2)) (h 3)

/-! ### Components in a row (R252) -/

/-- The components at and past the size: (0, 0, 0, 1). -/
def defaultComponent (k : BitVec 2) : Word := if k = 3 then fOne else 0

section fetchAttr
variable (q : Who) (slot : VaSlot) (size : BitVec 4) (a : Word) {b b' : Bus}

theorem component_value (present : Prop) [Decidable present] (default : Word) (conv : Nat → Word) (n : Nat) (h : b'.mem = b.mem) :
    (component (decide present) default (memReader q) conv a n b').1 = if present then conv (memRead q n a b).1 else default := by
  by_cases hp : present
  · simp only [component, hp, decide_true, if_true]
    exact congrArg conv (memRead_of_mem_eq q n a h)
  · simp only [component, hp, decide_false, if_false, Bool.false_eq_true]

/-- Each component below the size is read in its place and converted. -/
theorem components_get (conv : Nat → Word) (width : Nat) (b : Bus) (k : BitVec 2) :
    Vec4.get (components (memReader q) conv width size a b).1 k =
      if k.toNat < size.toNat then conv (memRead q width (a + BitVec.ofNat 32 (width * k.toNat)) b).1 else defaultComponent k := by
  have hmem {b' : Bus} (hb : b'.mem = b.mem) (p : Bool) (v : Word) (c : Word) :
      (component p v (memReader q) conv c width b').2.mem = b.mem := (component_readsOnly (memReader_good q) ..).1.trans hb
  rw [Nat.mul_comm width]
  rcases component_cases k with rfl | rfl | rfl | rfl
  · exact (component_value q a (0 < size.toNat) 0 conv width rfl).trans (by simp [defaultComponent])
  · exact (component_value q (a + BitVec.ofNat 32 width) (1 < size.toNat) 0 conv width (hmem rfl ..)).trans (by simp [defaultComponent])
  · exact component_value q (a + BitVec.ofNat 32 (2 * width)) (2 < size.toNat) 0 conv width (hmem (hmem rfl ..) ..)
  · exact component_value q (a + BitVec.ofNat 32 (3 * width)) (3 < size.toNat) fOne conv width (hmem (hmem (hmem rfl ..) ..) ..)

theorem defaulted_get (v : Vec4) (k : BitVec 2) :
    Vec4.get (defaulted size v) k = if k.toNat < size.toNat then Vec4.get v k else defaultComponent k := by
  rcases component_cases k with rfl | rfl | rfl | rfl <;> rfl

/-- UB_D3D: the colour components stand in reverse (R252). -/
theorem fetchUbD3d_get (b : Bus) (k : BitVec 2) :
    Vec4.get (fetchUbD3d (memReader q) size a b).1 k =
      if k.toNat < size.toNat then ubyteToFloat (memRead q 1 (a + BitVec.ofNat 32 (if k = 3 then 3 else 2 - k.toNat)) b).1
      else defaultComponent k := by
  have later {b' : Bus} (hb : b'.mem = b.mem) (c : Word) : (memRead q 1 c b').2.mem = b.mem := (memRead_mem ..).trans hb
  have value {b' : Bus} (hb : b'.mem = b.mem) (c : Word) := congrArg ubyteToFloat (memRead_of_mem_eq q 1 c hb)
  rw [fetchUbD3d, defaulted_get]
  refine if_congr Iff.rfl ?_ rfl
  rcases component_cases k with rfl | rfl | rfl | rfl
  · exact value (later (later rfl _) _) (a + 2)
  · exact value (later rfl _) (a + 1)
  · exact (congrArg (fun c => ubyteToFloat (memRead q 1 c b).1) (BitVec.add_zero a)).symm
  · exact value (later (later (later rfl _) _) _) (a + 3)

/-! ### Conversions -/

/-- A byte over 255 as a component, rounded once (R252). -/
theorem ubyteToFloat_eq {n : Nat} (h : n < 256) : ubyteToFloat n = fRoundInt n 255 := by
  have hneg : decide ((n : Int) < 0) = false := by simp
  rw [ubyteToFloat, from8, fRoundInt, hneg, Int.natAbs_natCast, BitVec.toNat_ofNat, Nat.mod_eq_of_lt h]

theorem ubyteToFloat_memRead (b : Bus) : ubyteToFloat (memRead q 1 a b).1 = fRoundInt (memRead q 1 a b).1 255 :=
  ubyteToFloat_eq (memRead_lt q 1 a b)

/-! ### The conversion by type (R252, R156) -/

variable {slot} (rd : Reader) (b)

theorem fetchAttr_float (h : slot.type = 2) : fetchAttr q rd slot a b = components rd (BitVec.ofNat 32) 4 slot.size a b :=
  if_pos h

theorem fetchAttr_ubD3d (h : slot.type = 0) : fetchAttr q rd slot a b = fetchUbD3d rd slot.size a b := by simp [fetchAttr, h]

theorem fetchAttr_ubOgl (h : slot.type = 4) : fetchAttr q rd slot a b = components rd ubyteToFloat 1 slot.size a b := by
  simp [fetchAttr, h]

theorem fetchAttr_s1 (h : slot.type = 1) :
    fetchAttr q rd slot a b = components rd (fun n => fRoundInt (sext16 n) 32767) 2 slot.size a b := by simp [fetchAttr, h]

theorem fetchAttr_s32k (h : slot.type = 5) :
    fetchAttr q rd slot a b = components rd (fun n => fOfInt (sext16 n)) 2 slot.size a b := by simp [fetchAttr, h]

theorem fetchAttr_cmp (h : slot.type = 6) : fetchAttr q rd slot a b = fetchCmp rd slot.size a b := by simp [fetchAttr, h]

theorem fetchAttr_unsupported (h : slot.type = 3 ∨ 7 ≤ slot.type.toNat) :
    fetchAttr q rd slot a b = (.zero, raise q .unsupportedVtxType b) := by
  have hne : ∀ ty : BitVec 4, ty = 3 ∨ 7 ≤ ty.toNat → ty ≠ 2 ∧ ty ≠ 0 ∧ ty ≠ 4 ∧ ty ≠ 1 ∧ ty ≠ 5 ∧ ty ≠ 6 := by decide
  obtain ⟨h2, h0, h4, h1, h5, h6⟩ := hne _ h
  rw [fetchAttr, if_neg h2, if_neg h0, if_neg h4, if_neg h1, if_neg h5, if_neg h6]

/-- The types that R156 names, and the others. -/
theorem type_cases (ty : BitVec 4) : ty = 2 ∨ ty = 0 ∨ ty = 4 ∨ ty = 1 ∨ ty = 5 ∨ ty = 6 ∨ ty = 3 ∨ 7 ≤ ty.toNat := by
  revert ty; decide

variable {b} (slot)

/-- The value fetched is that of memory, whatever the log. -/
theorem fetchAttr_of_mem_eq (h : b'.mem = b.mem) :
    (fetchAttr q (memReader q) slot a b').1 = (fetchAttr q (memReader q) slot a b).1 := by
  have row (conv : Nat → Word) (width : Nat) :
      (components (memReader q) conv width slot.size a b').1 = (components (memReader q) conv width slot.size a b).1 :=
    Vec4.ext_get fun k => by simp only [components_get, memRead_of_mem_eq q _ _ h]
  rcases type_cases slot.type with ht | ht | ht | ht | ht | ht | ht
  · simp only [fetchAttr_float q a _ _ ht, row]
  · simp only [fetchAttr_ubD3d q a _ _ ht]
    exact Vec4.ext_get fun k => by simp only [fetchUbD3d_get, memRead_of_mem_eq q _ _ h]
  · simp only [fetchAttr_ubOgl q a _ _ ht, row]
  · simp only [fetchAttr_s1 q a _ _ ht, row]
  · simp only [fetchAttr_s32k q a _ _ ht, row]
  · simp only [fetchAttr_cmp q a _ _ ht, fetchCmp, memReader, memRead_of_mem_eq q _ _ h]
  · simp only [fetchAttr_unsupported q a _ _ ht]

end fetchAttr

/-! ### The 16 slots (R254) -/

section fetchSlot
variable {q : Who} {rd : Reader} {va : VertexArrays} {addr : Nat → Word} {i j : Nat} (r : Bank Vec4 × Bus)

theorem fetchSlot_other (h : j ≠ i) : bankGet Vec4.zero (fetchSlot q rd va addr j r).1 i = bankGet .zero r.1 i := by
  unfold fetchSlot
  split
  · rfl
  · exact bankGet_set_other _ _ h.symm

theorem fetchSlot_same :
    bankGet Vec4.zero (fetchSlot q rd va addr i r).1 i =
      if (slotAt va i).size = 0 then bankGet .zero r.1 i else (fetchAttr q rd (slotAt va i) (addr i) r.2).1 := by
  unfold fetchSlot
  split
  · rfl
  · exact bankGet_set_same ..

end fetchSlot

/-- What the turns of a fetch for other slots leave: memory and entry `i` of the vertex. -/
def SlotKept (i : Nat) (r r' : Bank Vec4 × Bus) : Prop := r'.2.mem = r.2.mem ∧ bankGet Vec4.zero r'.1 i = bankGet .zero r.1 i

theorem SlotKept.trans {i : Nat} {r r' r'' : Bank Vec4 × Bus} (h : SlotKept i r r') (h' : SlotKept i r' r'') : SlotKept i r r'' :=
  ⟨h'.1.trans h.1, h'.2.trans h.2⟩

/-- Entry `i` of a vertex of the arrays, from memory as the fetch finds it (R254). -/
theorem fetchSlots_get (q : Who) (va : VertexArrays) (addr : Nat → Word) (pvtx : Bank Vec4) (b : Bus) {i : Nat} (hi : i < 16) :
    bankGet .zero (fetchSlots q (memReader q) va addr pvtx b).1 i =
      if (slotAt va i).size = 0 then bankGet .zero pvtx i else (fetchAttr q (memReader q) (slotAt va i) (addr i) b).1 := by
  have hother (j : Nat) (r : Bank Vec4 × Bus) (_ : 0 ≤ j) (_ : j < 0 + 16) (hne : j ≠ i) :
      SlotKept i r (fetchSlot q (memReader q) va addr j r) :=
    ⟨(fetchSlot_readsOnly q (memReader_good q) ..).1, fetchSlot_other r hne⟩
  obtain ⟨m, hbefore, hafter⟩ :=
    loopFrom_turn (rel := SlotKept i) (fun _ => ⟨rfl, rfl⟩) .trans (Nat.zero_le i) (by omega) hother (pvtx, b)
  obtain ⟨hmem, hattr⟩ := hbefore
  rw [fetchSlots, hafter.2, fetchSlot_same, hattr, fetchAttr_of_mem_eq q _ _ hmem]

/-- The place of an element of an array, modulo 2^32 (R254). -/
theorem elementAddr_eq (slot : VaSlot) (n : Word) :
    slot.offset + n * slot.stride.setWidth 32 = BitVec.ofNat 32 (slot.offset.toNat + n.toNat * slot.stride.toNat) := by
  rw [BitVec.ofNat_add, BitVec.ofNat_mul, BitVec.ofNat_toNat, BitVec.ofNat_toNat, BitVec.ofNat_toNat, BitVec.setWidth_eq,
    BitVec.setWidth_eq]

end Sys2Proof.Machine

section
open Sys2Proof Sys2Proof.Machine

/-- Settles O48: by type, each component below the size is the read of its place, which no read before it changes; and of the 16 slots
only slot `i` writes entry `i`. -/
theorem fetchedAttributes : Obligations.FetchedAttributes := by
  intro q slot a b va pvtx n i
  refine ⟨(fetchAttr_readsOnly q (memReader_good q) ..).1, fun h k => ?float, fun h k => ?ubOgl, fun h k => ?ubD3d, fun h k => ?s1,
    fun h k => ?s32k, fun h => ?cmp, fun h => fetchAttr_unsupported q a b _ h, fun hi => ?slots⟩
  case float => rw [fetchAttr_float q a b _ h, components_get]; rfl
  case ubOgl => rw [fetchAttr_ubOgl q a b _ h, components_get, ubyteToFloat_memRead, Nat.one_mul]; rfl
  case ubD3d => rw [fetchAttr_ubD3d q a b _ h, fetchUbD3d_get, ubyteToFloat_memRead]; rfl
  case s1 => rw [fetchAttr_s1 q a b _ h, components_get]; rfl
  case s32k => rw [fetchAttr_s32k q a b _ h, components_get]; rfl
  case cmp =>
    rw [fetchAttr_cmp q a b _ h]
    simp only [wordBits_eq_extractLsb']
    exact ⟨rfl, rfl, rfl, fun hsize => if_neg (by omega)⟩
  case slots =>
    rw [← elementAddr_eq]
    exact fetchSlots_get q va _ pvtx b hi

end
end

section
/-! PROOFS. What keeps a draw from a refusal (R602): with legal enumerated words, combiner codes and program instructions, every stage of
the pipeline completes (R340, R481, R486, R598). -/

namespace Sys2Proof.Machine
open Sys2Proof

/-! ### Results that are no refusal -/

/-- The result is no refusal. -/
def Completes {α : Type} (r : Except Refusal α) : Prop := ∃ a, r = .ok a

theorem completes_ok {α : Type} (a : α) : Completes (.ok a) := ⟨a, rfl⟩

theorem Completes.bind {α β : Type} {r : Except Refusal α} {f : α → Except Refusal β} (h : Completes r)
    (hf : ∀ a, r = .ok a → Completes (f a)) : Completes (r.bind f) := by
  obtain ⟨a, rfl⟩ := h
  exact hf a rfl

theorem Completes.map {α β : Type} {r : Except Refusal α} (f : α → β) (h : Completes r) : Completes (r.map f) := by
  obtain ⟨a, rfl⟩ := h
  exact ⟨f a, rfl⟩

theorem completes_ite {α : Type} {c : Prop} [Decidable c] {r q : Except Refusal α} (hr : c → Completes r) (hq : ¬ c → Completes q) :
    Completes (if c then r else q) := by
  split
  case isTrue h => exact hr h
  case isFalse h => exact hq h

/-- A loop whose every turn completes, completes. -/
theorem loopM_completes {α : Type} {f : Nat → α → Except Refusal α} {n start : Nat}
    (h : ∀ i a, i < start + n → Completes (f i a)) (a : α) : Completes (loopM f n start a) := by
  induction n generalizing start a with
  | zero => exact completes_ok a
  | succ n ih =>
    obtain ⟨b, hb⟩ := h start a (by omega)
    rw [loopM, hb]
    exact ih (fun i c hi => h i c (by omega)) b

/-! ### Enumerations (R598) -/

theorem member_completes {α : Type} {table : List (Word × α)} {w : Word} (h : isMember table w = true) : Completes (member table w) := by
  obtain ⟨k, hk⟩ := Option.isSome_iff_exists.mp h
  exact ⟨k, member_ok.mpr hk⟩

theorem compare_completes {e : Enums} {f : Word} (h : isMember e.compare f = true) (a b : Nat) : Completes (compare e f a b) :=
  (member_completes h).map _

theorem stencilOp_completes {e : Enums} {op : Word} (p : PixelState) (h : isMember e.stencil op = true) (st : BitVec 8) :
    Completes (stencilOp e p op st) := ((member_completes h).map _).map _

theorem blendFactor_completes {e : Enums} {f : Word} (h : isMember e.factor f = true) (value : Nat) (c : Chan) (src dst const : Word) :
    Completes (scaled value (blendFactor e f c src dst const)) := ((member_completes h).map _).map _

/-- The words of a pixel state that R598 asks to be members, each under the test or operation that uses it. -/
structure EnumsLegal (e : Enums) (p : PixelState) : Prop where
  alpha : p.alphaTestEn = true → isMember e.compare p.alphaFunc = true
  stencil : p.stencilTestEn = true → isMember e.compare p.stencilFunc = true
  stencilFail : p.stencilTestEn = true → isMember e.stencil p.stencilOpFail = true
  stencilZfail : p.stencilTestEn = true → isMember e.stencil p.stencilOpZfail = true
  stencilZpass : p.stencilTestEn = true → isMember e.stencil p.stencilOpZpass = true
  depth : p.depthTestEn = true → isMember e.compare p.depthFunc = true
  logic : p.logicOpEn = true → isMember e.logic p.logicOp = true
  equation : p.logicOpEn = false → p.blendEn = true → isMember e.equation p.blendEq = true
  factors : p.logicOpEn = false → p.blendEn = true → usesFactors e p = true →
    isMember e.factor p.blendSfactor = true ∧ isMember e.factor p.blendDfactor = true

theorem enumsLegal_parts {e : Enums} {p : PixelState} (h : enumsLegal e p = true) : EnumsLegal e p := by
  simp only [enumsLegal, Bool.and_eq_true, Bool.or_eq_true, Bool.not_eq_true'] at h
  obtain ⟨⟨⟨⟨halpha, hstencil⟩, hdepth⟩, hlogic⟩, hblend⟩ := h
  have stencil (hen : p.stencilTestEn = true) := hstencil.resolve_left (by simp [hen])
  have blend (hoff : p.logicOpEn = false) (hen : p.blendEn = true) := hblend.resolve_left (by simp [hoff, hen])
  exact {
    alpha := fun hen => halpha.resolve_left (by simp [hen])
    stencil := fun hen => (stencil hen).1.1.1
    stencilFail := fun hen => (stencil hen).1.1.2
    stencilZfail := fun hen => (stencil hen).1.2
    stencilZpass := fun hen => (stencil hen).2
    depth := fun hen => hdepth.resolve_left (by simp [hen])
    logic := fun hen => hlogic.resolve_left (by simp [hen])
    equation := fun hoff hen => (blend hoff hen).1
    factors := fun hoff hen huses => (blend hoff hen).2.resolve_left (by simp [huses]) }

/-- One channel of a blend: MIN and MAX do not look at the factors (R560). -/
theorem blendChannel_completes {e : Enums} {p : PixelState} (heq : isMember e.equation p.blendEq = true)
    (hf : usesFactors e p = true → isMember e.factor p.blendSfactor = true ∧ isMember e.factor p.blendDfactor = true)
    (c : Chan) (src dst : Word) : Completes (blendChannel e p c src dst) := by
  refine (member_completes heq).bind fun k hk => ?_
  have hscaled (hu : usesFactors e p = true) (r : Nat → Nat → Nat) :
      Completes (do
        let a ← scaled (c.of src) (blendFactor e p.blendSfactor c src dst p.blendColor)
        let b ← scaled (c.of dst) (blendFactor e p.blendDfactor c src dst p.blendColor)
        return r a b) :=
    (blendFactor_completes (hf hu).1 ..).bind fun _ _ => (blendFactor_completes (hf hu).2 ..).map _
  have huses (hne : k ≠ .min ∧ k ≠ .max) : usesFactors e p = true := by simpa [usesFactors, member_ok.mp hk] using hne
  cases k with
  | add => exact hscaled (huses ⟨nofun, nofun⟩) fun a b => min (a + b) 255
  | subtract => exact hscaled (huses ⟨nofun, nofun⟩) fun a b => a - b
  | reverseSubtract =>
    exact (blendFactor_completes (hf (huses ⟨nofun, nofun⟩)).2 ..).bind fun _ _ =>
      (blendFactor_completes (hf (huses ⟨nofun, nofun⟩)).1 ..).map _
  | min => exact completes_ok _
  | max => exact completes_ok _

theorem blend_completes {e : Enums} {p : PixelState} (heq : isMember e.equation p.blendEq = true)
    (hf : usesFactors e p = true → isMember e.factor p.blendSfactor = true ∧ isMember e.factor p.blendDfactor = true)
    (src dst : Word) : Completes (blend e p src dst) := by
  have hchan (c : Chan) := blendChannel_completes heq hf c src dst
  exact (hchan .r).bind fun _ _ => (hchan .g).bind fun _ _ => (hchan .b).bind fun _ _ => (hchan .a).map _

/-! ### The pixel stage (R550 to R555) -/

section pixel
variable {d : Draw} (h : enumsLegal d.enums d.pix = true)
include h

theorem alphaTest_completes (src : Word) : Completes (alphaTest d.enums d.pix src) :=
  completes_ite (fun hen => compare_completes ((enumsLegal_parts h).alpha hen) ..) fun _ => completes_ok _

theorem stencilTest_completes (sd : BitVec 8) : Completes (stencilTest d.enums d.surf d.pix sd) :=
  completes_ite (fun hen => compare_completes ((enumsLegal_parts h).stencil (Bool.and_eq_true_iff.mp hen).2) ..) fun _ => completes_ok _

theorem depthTest_completes (zi zd : Nat) : Completes (depthTest d.enums d.surf d.pix zi zd) :=
  completes_ite (fun hen => compare_completes ((enumsLegal_parts h).depth (Bool.and_eq_true_iff.mp hen).2) ..) fun _ => completes_ok _

omit h in
theorem stencilAfter_completes {op : Word} (hop : d.pix.stencilTestEn = true → isMember d.enums.stencil op = true) (sd : BitVec 8) :
    Completes (stencilAfter d.enums d.pix op sd) :=
  completes_ite (fun hen => stencilOp_completes d.pix (hop hen) sd) fun _ => completes_ok _

theorem shadeResult_completes (src dst : Word) : Completes (shadeResult d.enums d.pix src dst) :=
  completes_ite (fun hen => (member_completes ((enumsLegal_parts h).logic hen)).map _) fun hoff =>
    have hoff := Bool.eq_false_of_not_eq_true hoff
    completes_ite (fun hen => blend_completes ((enumsLegal_parts h).equation hoff hen) ((enumsLegal_parts h).factors hoff hen) src dst)
      fun _ => completes_ok _

theorem pixelPass_completes (x y zi zd : Nat) (sd : BitVec 8) (src : Word) (b : Bus) : Completes (pixelPass d x y zi zd sd src b) := by
  have hstencil : Completes (passStencil d.enums d.surf d.pix sd) :=
    completes_ite (fun _ => stencilAfter_completes (enumsLegal_parts h).stencilZpass sd) fun _ => completes_ok _
  exact hstencil.bind fun _ _ => ((shadeResult_completes h ..).map _).map _

omit h in
/-- A stencil test that fails was made. -/
theorem stencilTestEn_of_failed {sd : BitVec 8} (hfail : stencilTest d.enums d.surf d.pix sd = .ok false) :
    d.pix.stencilTestEn = true := by
  unfold stencilTest at hfail
  split at hfail
  case isTrue hen => exact (Bool.and_eq_true_iff.mp hen).2
  case isFalse => cases hfail

theorem pixelTests_completes (x y zi zd : Nat) (sd : BitVec 8) (src : Word) (b : Bus) :
    Completes (pixelTests d x y zi zd sd src b) := by
  refine (stencilTest_completes h sd).bind fun stencilPassed hst => completes_ite (fun _ => ?passed) fun hfailed => ?failed
  case passed =>
    refine (depthTest_completes h zi zd).bind fun depthPassed _ => completes_ite (fun _ => ?_) fun _ => ?_
    · exact pixelPass_completes h ..
    · exact (stencilAfter_completes (enumsLegal_parts h).stencilZfail sd).map _
  case failed =>
    have hen := stencilTestEn_of_failed (Bool.eq_false_of_not_eq_true hfailed ▸ hst)
    exact (stencilOp_completes d.pix ((enumsLegal_parts h).stencilFail hen) sd).map _

theorem pixel_completes (x y : Nat) (z src : Word) (b : Bus) : Completes (pixel d x y z src b) :=
  completes_ite (fun _ => completes_ok _) fun _ => completes_ite (fun _ => completes_ok _) fun _ =>
    (alphaTest_completes h src).bind fun _ _ => completes_ite (fun _ => pixelTests_completes h ..) fun _ => completes_ok _

end pixel

/-! ### The combiners (R481, R486) -/

/-- The code names a register, and one of the final stage's only there (R481). -/
theorem cmbReg_completes {g : CmbRegs} {code : BitVec 4} (h6 : code ≠ 6) (h7 : code ≠ 7)
    (hf : code = 14 ∨ code = 15 → g.final = true) : Completes (cmbReg g code) := by
  unfold cmbReg
  split
  case h_13 => rw [if_pos (hf (.inl rfl))]; exact completes_ok _
  case h_14 => rw [if_pos (hf (.inr rfl))]; exact completes_ok _
  case h_15 => exfalso; clear hf; revert code; decide
  all_goals exact completes_ok _

/-- The input byte may be read with the registers at hand: as in a general stage, or as in the final one (R481, R488). -/
def inputLegal (g : CmbRegs) (byte : BitVec 8) : Prop := stageCode byte = true ∨ g.final = true ∧ finalCode byte = true

theorem cmbReg_input_completes {g : CmbRegs} {byte : BitVec 8} (h : inputLegal g byte) : Completes (cmbReg g (byte.extractLsb' 0 4)) := by
  simp only [inputLegal, stageCode, finalCode, Bool.and_eq_true, bne_iff_ne] at h
  rcases h with ⟨⟨⟨h6, h7⟩, h14⟩, h15⟩ | ⟨hfinal, h6, h7⟩
  · exact cmbReg_completes h6 h7 fun h => absurd h (not_or.mpr ⟨h14, h15⟩)
  · exact cmbReg_completes h6 h7 fun _ => hfinal

theorem cmbInputRgb_completes {g : CmbRegs} {byte : BitVec 8} (h : inputLegal g byte) : Completes (cmbInputRgb g byte) :=
  (cmbReg_input_completes h).map _

theorem cmbInputAlpha_completes {g : CmbRegs} {byte : BitVec 8} (h : inputLegal g byte) : Completes (cmbInputAlpha g byte) :=
  (cmbReg_input_completes h).map _

theorem cmbScale_completes {ocw : Word} (h : ocwLegal ocw = true) : Completes (cmbScale (ocwOp ocw)) := by
  simp only [ocwLegal, Bool.and_eq_true, bne_iff_ne] at h
  generalize ocwOp ocw = op at h
  unfold cmbScale
  split
  case h_7 => exfalso; revert op; decide
  all_goals exact completes_ok _

theorem stageRgb_completes {icw ocw : Word} (g : CmbRegs) (hi : icwLegal icw = true) (ho : ocwLegal ocw = true) :
    Completes (stageRgb g icw ocw) := by
  simp only [icwLegal, Bool.and_eq_true] at hi
  obtain ⟨⟨⟨ha, hb⟩, hc⟩, hd⟩ := hi
  exact (cmbInputRgb_completes (.inl ha)).bind fun _ _ => (cmbInputRgb_completes (.inl hb)).bind fun _ _ =>
    (cmbInputRgb_completes (.inl hc)).bind fun _ _ => (cmbInputRgb_completes (.inl hd)).bind fun _ _ => (cmbScale_completes ho).map _

theorem stageAlpha_completes {icw ocw : Word} (g : CmbRegs) (hi : icwLegal icw = true) (ho : ocwLegal ocw = true) :
    Completes (stageAlpha g icw ocw) := by
  simp only [icwLegal, Bool.and_eq_true] at hi
  obtain ⟨⟨⟨ha, hb⟩, hc⟩, hd⟩ := hi
  exact (cmbInputAlpha_completes (.inl ha)).bind fun _ _ => (cmbInputAlpha_completes (.inl hb)).bind fun _ _ =>
    (cmbInputAlpha_completes (.inl hc)).bind fun _ _ => (cmbInputAlpha_completes (.inl hd)).bind fun _ _ => (cmbScale_completes ho).map _

/-- The four words of a stage are legal (R481, R486). -/
structure StageLegal (st : CmbStage) : Prop where
  cicw : icwLegal st.cicw = true
  aicw : icwLegal st.aicw = true
  cocw : ocwLegal st.cocw = true
  aocw : ocwLegal st.aocw = true

theorem generalStage_completes {st : CmbStage} (h : StageLegal st) (q : Who) (r : CmbRegs × Bus) : Completes (generalStage q st r) :=
  (stageRgb_completes _ h.cicw h.cocw).bind fun _ _ => (stageAlpha_completes _ h.aicw h.aocw).map _

/-- What `combinerLegal` says of the stages and of the final inputs (R481, R486, R488). -/
structure CombinerLegal (c : Combiner) : Prop where
  stages : ∀ i, i < c.stages.toNat → StageLegal (stageAt c i)
  e : stageCode (byteOf c.fcw1 3) = true
  f : stageCode (byteOf c.fcw1 2) = true
  g : finalCode (byteOf c.fcw1 1) = true
  abcd : ∀ n, n < 4 → finalCode (byteOf c.fcw0 n) = true

theorem combinerLegal_parts {c : Combiner} (h : combinerLegal c = true) : CombinerLegal c := by
  simp only [combinerLegal, Bool.and_eq_true, List.all_eq_true, List.mem_range] at h
  obtain ⟨⟨⟨⟨⟨⟨⟨hstages, he⟩, hf⟩, hg⟩, h3⟩, h2⟩, h1⟩, h0⟩ := h
  refine ⟨fun i hi => ?_, he, hf, hg, fun n hn => ?_⟩
  · obtain ⟨⟨⟨hc, ha⟩, hco⟩, hao⟩ := hstages i hi
    exact ⟨hc, ha, hco, hao⟩
  · interval_cases n <;> assumption

theorem finalStage_completes {c : Combiner} (h : CombinerLegal c) (g : CmbRegs) : Completes (finalStage c g) :=
  (cmbInputRgb_completes (.inl h.e)).bind fun _ _ => (cmbInputRgb_completes (.inl h.f)).bind fun _ _ =>
    (cmbInputRgb_completes (.inr ⟨rfl, h.abcd 3 (by omega)⟩)).bind fun _ _ =>
      (cmbInputRgb_completes (.inr ⟨rfl, h.abcd 2 (by omega)⟩)).bind fun _ _ =>
        (cmbInputRgb_completes (.inr ⟨rfl, h.abcd 1 (by omega)⟩)).bind fun _ _ =>
          (cmbInputRgb_completes (.inr ⟨rfl, h.abcd 0 (by omega)⟩)).bind fun _ _ =>
            (cmbInputAlpha_completes (.inr ⟨rfl, h.g⟩)).map _

theorem combine_completes {c : Combiner} (h : CombinerLegal c) (q : Who) (p : Vec4) (t0 t1 t2 t3 : Word) (b : Bus) :
    Completes (combine q c p t0 t1 t2 t3 b) := by
  have hstages : Completes (loopM (fun s r => generalStage q (stageAt c s) r) c.stages.toNat 0 (cmbInit p t0 t1 t2 t3, b)) :=
    loopM_completes (fun i r hi => generalStage_completes (h.stages i (by omega)) q r) _
  exact hstages.bind fun _ _ => (finalStage_completes h _).map _

/-! ### Triangles (R370, R381, R391) -/

/-- What a draw with the shader reads refuses nothing. -/
structure DrawLegal (d : Draw) (sel : Shader) : Prop where
  enums : enumsLegal d.enums d.pix = true
  combiner : sel = .combiner → CombinerLegal d.cmb

section triangle
variable {d : Draw} {sel : Shader} (h : DrawLegal d sel)
include h

theorem shade_completes (p : Par13) (b : Bus) : Completes (shade d sel p b) := by
  cases sel with
  | flat => exact completes_ok _
  | tex0 => exact completes_ok _
  | combiner => exact combine_completes (h.combiner rfl) ..

theorem rasterPixel_completes (a b c : TVertex) (x y : Nat) (bus : Bus) : Completes (rasterPixel d sel a b c x y bus) :=
  completes_ite (fun _ => (shade_completes h ..).bind fun _ _ => pixel_completes h.enums ..) fun _ => completes_ok _

theorem raster_completes (a b c : TVertex) (bus : Bus) : Completes (raster d sel a b c bus) :=
  completes_ite (fun _ => loopM_completes (fun y _ _ => loopM_completes (fun x _ _ => rasterPixel_completes h a b c x y _) _) _)
    fun _ => completes_ok _

theorem fanFrom_completes (first : TVertex) (l : List TVertex) (bus : Bus) : Completes (fanFrom d sel first l bus) := by
  induction l generalizing bus with
  | nil => exact completes_ok bus
  | cons p rest ih =>
    cases rest with
    | nil => exact completes_ok bus
    | cons q rest => exact (raster_completes h ..).bind fun u _ => ih u

theorem triangle_completes (a b c : TVertex) (bus : Bus) : Completes (triangle d sel a b c bus) := by
  refine completes_ite (fun _ => raster_completes h ..) fun _ => completes_ite (fun _ => completes_ok bus) fun _ => ?_
  unfold drawFan
  split
  · exact completes_ok bus
  · exact fanFrom_completes h ..

theorem drawTriangles_completes (l : List (TVertex × TVertex × TVertex)) (bus : Bus) : Completes (drawTriangles d sel l bus) := by
  induction l generalizing bus with
  | nil => exact completes_ok bus
  | cons t rest ih => exact (triangle_completes h ..).bind fun u _ => ih u

end triangle

theorem assemble_completes {d : Draw} {p : Prim} (h : DrawLegal d p.rsel) (t : TVertex) (bus : Bus) : Completes (assemble d p t bus) :=
  (drawTriangles_completes h ..).map _

/-! ### The run of a vertex program (R340) -/

theorem operandReg_completes {o : VpOperand} (h : o.mux ≠ 0) (u : VProg) (f : VpFields) : Completes (operandReg u f o) := by
  refine completes_ite (fun _ => completes_ok _) fun h1 => completes_ite (fun _ => completes_ok _) fun h2 =>
    completes_ite (fun _ => completes_ok _) fun h3 => absurd h ?_
  rcases component_cases o.mux with h0 | h0 | h0 | h0
  · exact not_not.mpr h0
  · exact absurd h0 h1
  · exact absurd h0 h2
  · exact absurd h0 h3

/-- An operand that is read has a legal kind (R139, R140). -/
theorem operandIf_completes {reads : Bool} {o : VpOperand} (h : (!reads || o.mux != 0) = true) (u : VProg) (f : VpFields) :
    Completes (operandIf reads u f o) := by
  refine completes_ite (fun hreads => ?_) fun _ => completes_ok _
  have hmux : o.mux ≠ 0 := by simpa [hreads] using h
  exact (operandReg_completes hmux u f).map _

theorem vpExecute_completes {vop sop : BitVec 4} {f : VpFields} (h : vpLegal vop sop f = true) (m : Numerics) (q : Who) (u : VProg)
    (bus : Bus) : Completes (vpExecute m q vop sop f u bus) := by
  simp only [vpLegal, kindsLegal, Bool.and_eq_true] at h
  obtain ⟨hops, ⟨ha, hb⟩, hc⟩ := h
  refine completes_ite (fun _ => ?_) fun hno => absurd (Bool.and_eq_true_iff.mpr hops) hno
  exact (operandIf_completes ha u f).bind fun _ _ => (operandIf_completes hb u f).bind fun _ _ => (operandIf_completes hc u f).map _

/-- An instruction leaves `vpip` (R306). -/
theorem writeOutput_ip (q : Who) (vop sop : BitVec 4) (f : VpFields) (v s : Vec4) (u : VProg) (b : Bus) :
    (writeOutput q vop sop f v s u b).1.ip = u.ip := by
  unfold writeOutput
  dsimp only
  repeat' split
  all_goals rfl

theorem vpExecute_ip {m : Numerics} {q : Who} {vop sop : BitVec 4} {f : VpFields} {u : VProg} {b : Bus} {r : VProg × Bus}
    (h : vpExecute m q vop sop f u b = .ok r) : r.1.ip = u.ip := by
  unfold vpExecute at h
  split at h
  case isFalse => cases h
  case isTrue =>
    obtain ⟨_, _, h⟩ := except_bind_ok h
    obtain ⟨_, _, h⟩ := except_bind_ok h
    obtain ⟨_, _, h⟩ := except_bind_ok h
    cases h
    exact writeOutput_ip ..

/-- Whether a program is legal depends on its instruction memory alone. -/
theorem programLegal_congr {l : VpLayout} {u w : VProg} (h : w.vpi = u.vpi) : programLegal l w = programLegal l u := by
  simp only [programLegal, instrLegal, vpWordsAt, vpiAt, h]

theorem instrLegal_of_programLegal {l : VpLayout} {u : VProg} (h : programLegal l u = true) {i : Nat} (hi : i < 256) :
    instrLegal l u i = true := List.all_eq_true.mp h i (List.mem_range.mpr hi)

theorem vpLoop_completes {par : Params} (q : Who) (n : Nat) {u : VProg} (b : Bus) (h : programLegal par.tables.vpLayout u = true)
    (hip : u.ip.toNat ≤ 256) : Completes (vpLoop par q n u b) := by
  induction n generalizing u b with
  | zero => exact completes_ok _
  | succ n ih =>
    refine completes_ite (fun _ => completes_ok _) fun hne => ?_
    have hlt : u.ip.toNat < 256 := lt_of_le_of_ne hip fun he => hne (BitVec.eq_of_toNat_eq he)
    refine (vpExecute_completes (instrLegal_of_programLegal h hlt) ..).bind fun r hr => completes_ite (fun _ => completes_ok _) fun _ => ?_
    refine ih r.2 ?legal ?ip
    case legal =>
      have hkept : r.1.vpi = u.vpi := by rw [(vpExecute_result _ q _ _ _ u b hr).1]
      rw [← h]
      exact programLegal_congr hkept
    case ip =>
      have hnext : (r.1.ip + 1).toNat = (u.ip.toNat + 1) % 512 := by rw [vpExecute_ip hr]; exact BitVec.toNat_add ..
      exact hnext ▸ (by omega)

/-! ### Emission (R255) -/

/-- What `drawReady` says of a state (R602). -/
structure DrawReady (s : State) : Prop where
  draw : DrawLegal (drawOf s) s.prim.rsel
  program : s.vp.mode = true → programLegal s.par.tables.vpLayout s.vp = true

theorem drawReady_parts {s : State} (h : drawReady s = true) : DrawReady s := by
  simp only [drawReady, Bool.and_eq_true, or_iff_not_imp_left, Bool.or_eq_true, bne_iff_ne, Bool.not_eq_true', not_not,
    Bool.not_eq_false] at h
  obtain ⟨⟨henums, hcombiner⟩, hprogram⟩ := h
  exact ⟨⟨henums, fun hsel => combinerLegal_parts (hcombiner hsel)⟩, hprogram⟩

/-- Whether a draw is ready depends on these fields alone. -/
theorem drawReady_congr {s t : State} (hpar : t.par = s.par) (hpix : t.pix = s.pix) (hsel : t.prim.rsel = s.prim.rsel)
    (hcmb : t.cmb = s.cmb) (hmode : t.vp.mode = s.vp.mode) (hvpi : t.vp.vpi = s.vp.vpi) : drawReady t = drawReady s := by
  rw [drawReady, drawReady, hpar, hpix, hsel, hcmb, hmode, programLegal_congr hvpi]

theorem transformVertex_completes {s : State} (h : DrawReady s) (vtx : Bank Vec4) : Completes (transformVertex s vtx) := by
  refine completes_ite (fun hmode => ?_) fun _ => completes_ok _
  refine (vpLoop_completes (who s) 257 s.bus ?legal ?start).map _
  case legal => exact (programLegal_congr rfl).trans (h.program hmode)
  case start =>
    have hstart := s.vp.start.isLt
    rw [BitVec.toNat_setWidth]
    omega

/-- Where nothing that a draw reaches is a refusal, emitting a vertex completes (R255). -/
theorem emit_completes {s : State} (h : drawReady s = true) (vtx : Bank Vec4) : Completes (emit vtx s) :=
  completes_ite (fun _ => completes_ok _) fun _ =>
    (transformVertex_completes (drawReady_parts h) vtx).bind fun _ _ => (assemble_completes (drawReady_parts h).draw ..).map _

/-- Emitting a vertex keeps the shader chosen (R390). -/
theorem emit_rsel {vtx : Bank Vec4} {s t : State} (h : emit vtx s = .ok t) : t.prim.rsel = s.prim.rsel := by
  rcases emit_prim vtx s h with hp | ⟨v, hp⟩ <;> rw [hp]
  rfl

/-- Emitting a vertex leaves the next draw ready. -/
theorem emit_drawReady {vtx : Bank Vec4} {s t : State} (h : emit vtx s = .ok t) : drawReady t = drawReady s := by
  have hframe := emit_frame vtx s h
  have hprogram := emit_program vtx s h
  exact drawReady_congr (by rw [hframe]) (by rw [hframe]) (emit_rsel h) (by rw [hframe]) (by rw [hprogram]) (by rw [hprogram])

end Sys2Proof.Machine
end

section
/-! PROOFS. The methods that emit vertices: push, array draws and the inline array (R255 to R265). -/

namespace Sys2Proof.Machine
open Sys2Proof

/-! ### Push methods (R256 to R260) -/

/-- Entry 0 stored, then the vertex that holds it emitted. -/
theorem StoresAttr.emits {s t : State} {v : Vec4} (h : StoresAttr s 0 v t) (hs : drawReady s = true) :
    setsAndEmits (Run.ofExcept (emitPersistent t)) s v := by
  obtain ⟨hframe, hset⟩ := h
  have ht : drawReady { s with pvtx := t.pvtx } = true := hs
  obtain ⟨u, hu⟩ := emit_completes ht t.pvtx
  refine ⟨t.pvtx, u, ?_, hset, emit_emitsOne _ _ hu⟩
  rw [hframe, emitPersistent, hu]
  rfl

/-! ### Array draws (R262 to R264) -/

/-- Emitting a vertex of the arrays completes and leaves the next draw ready. -/
theorem emitIndexed_emits {s : State} (h : drawReady s = true) (n : Word) :
    ∃ t, emitIndexed n s = .ok t ∧ emitsIndexed s n t ∧ drawReady t = true := by
  have hfetched : drawReady { s with bus := (fetchVertex (who s) s.va s.pvtx n s.bus).2 } = true := h
  obtain ⟨t, ht⟩ := emit_completes hfetched (fetchVertex (who s) s.va s.pvtx n s.bus).1
  have hmem := (fetchVertex_readsOnly (who s) s.va s.pvtx n s.bus).1
  exact ⟨t, ht, ⟨hmem, emit_emitsOne _ _ ht⟩, (emit_drawReady ht).trans hfetched⟩

/-- Emitting a range of vertices completes, one after the other (R264). -/
theorem emitRange_emits {s : State} (h : drawReady s = true) (start : Word) (count : Nat) :
    ∃ t, emitRange start count s = .ok t ∧ emitsRange start count s t := by
  induction count generalizing s start with
  | zero => exact ⟨s, rfl, rfl⟩
  | succ count ih =>
    obtain ⟨u, hu, hemits, hready⟩ := emitIndexed_emits h start
    obtain ⟨t, ht, hrest⟩ := ih hready (start + 1)
    refine ⟨t, ?_, u, hemits, hrest⟩
    rw [emitRange, hu]
    exact ht

/-- Bits of a word as an index: its quotient by `2^lo`, cut to `len` bits (R12). -/
theorem extractLsb'_index (d : Word) (lo len : Nat) :
    (d.extractLsb' lo len).setWidth 32 = BitVec.ofNat 32 (d.toNat / 2 ^ lo % 2 ^ len) := by
  apply BitVec.eq_of_toNat_eq
  rw [BitVec.toNat_setWidth, BitVec.extractLsb'_toNat, Nat.shiftRight_eq_div_pow, BitVec.toNat_ofNat]

theorem lo16_index (d : Word) : (lo16 d).setWidth 32 = BitVec.ofNat 32 (d.toNat % 2 ^ 16) := by
  rw [lo16, extractLsb'_index, pow_zero, Nat.div_one]

/-- The bits from `lo` up to the top of a word. -/
theorem div_mod_top (d : Word) {lo len : Nat} (h : lo + len = 32) : d.toNat / 2 ^ lo % 2 ^ len = d.toNat / 2 ^ lo := by
  apply Nat.mod_eq_of_lt
  rw [Nat.div_lt_iff_lt_mul (Nat.two_pow_pos lo), ← Nat.pow_add, Nat.add_comm, h]
  exact d.isLt

theorem hi16_index (d : Word) : (hi16 d).setWidth 32 = BitVec.ofNat 32 (d.toNat / 2 ^ 16) := by
  rw [hi16, extractLsb'_index, div_mod_top d rfl]

/-- The first index and the count of DRAW_ARRAYS (R264). -/
theorem drawArrays_start (d : Word) : (d.extractLsb' 0 24).setWidth 32 = BitVec.ofNat 32 (d.toNat % 2 ^ 24) := by
  rw [extractLsb'_index, pow_zero, Nat.div_one]

theorem drawArrays_count (d : Word) : (byteOf d 3).toNat = d.toNat / 2 ^ 24 := by
  rw [byteOf, BitVec.extractLsb'_toNat, Nat.shiftRight_eq_div_pow, div_mod_top d rfl]

/-! ### The inline array (R265) -/

theorem vaTotal_inlinePush (va : VertexArrays) (d : Word) : vaTotal (inlinePush va d) = vaTotal va := rfl

section inlineArray
variable {s : State} {d : Word}

/-- The count after one word more, where the buffer has room (R265). -/
theorem inlineCount_toNat {n : BitVec 7} (h : n.toNat < 64) : (n + 1).toNat = n.toNat + 1 := by bv_omega

/-- A word stored where the buffer has room (R265). -/
theorem inlinePush_eq {va : VertexArrays} (h : va.ibufN.toNat < 64) :
    inlinePush va d =
      { va with ibuf := bankSet 0 va.ibuf va.ibufN.toNat d, ibufN := BitVec.ofNat 7 (va.ibufN.toNat + 1) } := by
  rw [inlinePush, if_pos (by exact h), ← add_ofNat_eq]
  rfl

theorem inlineFull_iff (h : s.va.ibufN.toNat < 64) : inlineFull (inlinePush s.va d) = true ↔ s.va.ibufN.toNat + 1 = vaTotal s.va := by
  rw [inlineFull, decide_eq_true_iff, vaTotal_inlinePush, inlinePush, inlineCount_toNat h]

theorem exec_inlineArray_eq (s : State) (d : Word) : exec (.inlineArray d) s = execInlineArray d s := rfl

theorem exec_inlineArray_empty (h : vaTotal s.va = 0) : exec (.inlineArray d) s = .next (s.raise .emptyLayout) := by
  rw [exec_inlineArray_eq, execInlineArray, if_pos h]

theorem exec_inlineArray_stored (h : vaTotal s.va ≠ 0) (hfull : inlineFull (inlinePush s.va d) = false) :
    exec (.inlineArray d) s = .next { s with va := inlinePush s.va d } := by
  simp only [exec_inlineArray_eq, execInlineArray, if_neg h, hfull, Bool.false_eq_true, if_false]

theorem exec_inlineArray_full (h : vaTotal s.va ≠ 0) (hfull : inlineFull (inlinePush s.va d) = true) :
    exec (.inlineArray d) s = Run.ofExcept (emitInline { s with va := inlinePush s.va d }) := by
  simp only [exec_inlineArray_eq, execInlineArray, if_neg h, hfull, if_true]

/-- Emitting the inline buffer's vertex completes, and empties the buffer (R265). -/
theorem emitInline_emits (h : drawReady s = true) :
    ∃ t, emitInline s = .ok { t with va := { s.va with ibufN := 0 } } ∧ t.va = s.va ∧
      emitsOne { s with bus := (inlineVertex (who s) s.va s.pvtx s.bus).2 } (inlineVertex (who s) s.va s.pvtx s.bus).1 t := by
  have hread : drawReady { s with bus := (inlineVertex (who s) s.va s.pvtx s.bus).2 } = true := h
  obtain ⟨t, ht⟩ := emit_completes hread (inlineVertex (who s) s.va s.pvtx s.bus).1
  have hva : t.va = s.va := by rw [emit_frame _ _ ht]
  refine ⟨t, ?_, hva, emit_emitsOne _ _ ht⟩
  rw [emitInline, ht, Except.map, hva]

end inlineArray

end Sys2Proof.Machine

section
open Sys2Proof Sys2Proof.Machine

/-- Settles O50: each stores entry 0, and emitting the vertex that holds it is no refusal. -/
theorem vertexPushEmits : Obligations.VertexPushEmits := by
  intro d s hs
  have one (c : BitVec 2) (x : Word) := setAttr_stores s 0 c x
  have vec (v : Vec4) := setAttrVec_stores s 0 v
  dsimp only
  simp only [← shortLo_eq, ← shortHi_eq, ← from8_bytes]
  exact ⟨((one 2 d).setAttr 3 fOne).emits hs, (one 3 d).emits hs, (((one 1 d).setAttr 2 0).setAttr 3 fOne).emits hs,
    (one 3 d).emits hs, (vec _).emits hs, (vec _).emits hs, (vec _).emits hs⟩

/-- Settles O51: each emission completes and leaves the next one ready. -/
theorem arrayDrawsEmit : Obligations.ArrayDrawsEmit := by
  intro d s hs
  refine ⟨?element32, ?element16, ?arrays⟩
  case element32 =>
    obtain ⟨t, ht, hemits, -⟩ := emitIndexed_emits hs d
    exact ⟨t, congrArg Run.ofExcept ht, hemits⟩
  case element16 =>
    rw [← lo16_index, ← hi16_index]
    obtain ⟨u, hu, hfirst, hready⟩ := emitIndexed_emits hs ((lo16 d).setWidth 32)
    obtain ⟨t, ht, hsecond, -⟩ := emitIndexed_emits hready ((hi16 d).setWidth 32)
    have hboth : (emitIndexed ((lo16 d).setWidth 32) s).bind (emitIndexed ((hi16 d).setWidth 32)) = .ok t := by rw [hu]; exact ht
    exact ⟨t, u, congrArg Run.ofExcept hboth, hfirst, hsecond⟩
  case arrays =>
    rw [← drawArrays_start, ← drawArrays_count]
    obtain ⟨t, ht, hemits⟩ := emitRange_emits hs ((d.extractLsb' 0 24).setWidth 32) ((byteOf d 3).toNat + 1)
    exact ⟨t, congrArg Run.ofExcept ht, hemits⟩

/-- Settles O52: by whether a slot is enabled, and whether the word completes a vertex. -/
theorem inlineArrayWord : Obligations.InlineArrayWord := by
  intro d s
  refine ⟨fun h => ?empty, fun h hroom hpart => ?stored, fun hroom hfull hs => ?full⟩
  case empty => rw [exec_inlineArray_empty h]; exact raisesOnly_raise s .emptyLayout
  case stored =>
    have hpart : inlineFull (inlinePush s.va d) = false := Bool.eq_false_of_not_eq_true fun hf => hpart ((inlineFull_iff hroom).mp hf)
    refine ⟨_, exec_inlineArray_stored h hpart, ?_⟩
    rw [inlinePush_eq hroom]
    exact ⟨rfl, setsAt_bankSet⟩
  case full =>
    have hpushed : drawReady { s with va := inlinePush s.va d } = true := hs
    obtain ⟨t, ht, hva, hemits⟩ := emitInline_emits hpushed
    have hexec := exec_inlineArray_full (d := d) (by omega) ((inlineFull_iff hroom).mpr hfull)
    refine ⟨_, inlinePush s.va d, _, _, hexec.trans (congrArg Run.ofExcept ht), ?va, ?ibuf, rfl, ?mem, rfl, ?emits⟩
    case va => rw [inlinePush_eq hroom]
    case ibuf => rw [inlinePush_eq hroom]; exact setsAt_bankSet
    case mem => exact (inlineVertex_readsOnly ..).1
    case emits =>
      have hpush : t.va = inlinePush s.va d := hva
      have hsame : { t with va := inlinePush s.va d } = t := by rw [← hpush]
      exact hsame.symm ▸ hemits

end
end

section
/-! PROOFS. The operands of a vertex-program instruction (R131, R132, R139, R307, R308). -/

namespace Sys2Proof.Machine
open Sys2Proof

/-! ### Component selection and sign (R131, R307) -/

/-- Component `k` is the one that its two selector bits name, x in the highest pair. -/
theorem swizzle_get (swz : BitVec 8) (v : Vec4) (k : BitVec 2) :
    Vec4.get (swizzle swz v) k = Vec4.get v (BitVec.ofNat 2 (swz.toNat / 4 ^ (3 - k.toNat))) := by
  have hsel : Vec4.get (swizzle swz v) k = Vec4.get v (swz.extractLsb' (2 * (3 - k.toNat)) 2) := by
    rcases component_cases k with rfl | rfl | rfl | rfl <;> rfl
  rw [hsel, BitVec.extractLsb', Nat.shiftRight_eq_div_pow, Nat.pow_mul]

theorem negated_get (neg : BitVec 1) (v : Vec4) (k : BitVec 2) :
    Vec4.get (negated neg v) k = if neg = 1 then Vec4.get v k ^^^ 0x80000000 else Vec4.get v k := by
  unfold negated
  split
  · rcases component_cases k with rfl | rfl | rfl | rfl <;> rfl
  · rfl

/-! ### The constant index (R308) -/

/-- The clamped sum is no negative number, so it is the index itself. -/
theorem cidxEff_toInt (f : VpFields) (a0x : Word) :
    (cidxEff f a0x : Int) = max 0 (min 191 ((f.cidx.toNat : Int) + if f.a0x = 1 then a0x.toInt else 0)) :=
  Int.toNat_of_nonneg (le_max_left ..)

/-! ### Operand assembly (R132, R307, R340) -/

/-- The register that an operand of legal kind names (R132). -/
def operandRegister (u : VProg) (f : VpFields) (o : VpOperand) : Vec4 :=
  if o.mux = 1 then bankGet .zero u.r o.reg.toNat
  else if o.mux = 2 then bankGet .zero u.v f.vidx.toNat else bankGet .zero u.vpc (cidxEff f u.a0x)

theorem operandReg_of_kind {o : VpOperand} (h : o.mux ≠ 0) (u : VProg) (f : VpFields) :
    operandReg u f o = .ok (operandRegister u f o) := by
  unfold operandReg operandRegister
  rcases component_cases o.mux with hk | hk | hk | hk
  · exact absurd hk h
  all_goals rw [hk]; rfl

theorem operand_reserved {o : VpOperand} (h : o.mux = 0) (u : VProg) (f : VpFields) : operand u f o = .error (.vpReserved u.ip) := by
  unfold operand operandReg
  rw [h]
  rfl

theorem operand_of_kind {o : VpOperand} (h : o.mux ≠ 0) (u : VProg) (f : VpFields) :
    operand u f o = .ok (negated o.neg (swizzle o.swz (operandRegister u f o))) := by
  rw [operand, operandReg_of_kind h]
  rfl

/-- The value that statements name is the operand's, where its kind is legal. -/
theorem operand_eq_value {o : VpOperand} (h : o.mux ≠ 0) (u : VProg) (f : VpFields) : operand u f o = .ok (operandValue u f o) := by
  rw [operandValue, operand_of_kind h]

/-! ### Operands that the opcodes read (R139) -/

/-- What an opcode gets of an operand: zero where it does not read it. -/
def readOf (reads : Bool) (v : Vec4) : Vec4 := if reads then v else .zero

/-- An operand is refused exactly where it is read and of the reserved kind. -/
theorem operandIf_eq (reads : Bool) (u : VProg) (f : VpFields) (o : VpOperand) :
    operandIf reads u f o =
      if (!reads || o.mux != 0) = true then .ok (readOf reads (operandValue u f o)) else .error (.vpReserved u.ip) := by
  cases reads with
  | false => rfl
  | true =>
    by_cases h : o.mux = 0
    · simp only [operandIf, operand_reserved h, h, if_true, Bool.not_true, Bool.false_or, bne_self_eq_false, Bool.false_eq_true, if_false]
    · simp only [operandIf, operand_eq_value h, h, if_true, Bool.not_true, Bool.false_or, bne_iff_ne, ne_eq, not_false_eq_true, readOf]

/-- The vector result depends on the operands alone that the vector opcode reads; C may be read for the scalar opcode too. -/
theorem vectorResult_readOf (vop : BitVec 4) (other : Bool) (a b c : Vec4) :
    vectorResult vop (readOf (vectorReads vop).1 a) (readOf (vectorReads vop).2.1 b) (readOf ((vectorReads vop).2.2 || other) c) =
      vectorResult vop a b c := by
  unfold vectorResult
  split <;> simp only [vectorReads, readOf, if_true, Bool.true_or]

theorem scalarResult_nop (m : Numerics) (c : Vec4) : scalarResult m 0 c = .zero := rfl

/-- The scalar result depends on C only where the scalar opcode reads it. -/
theorem scalarResult_readOf (m : Numerics) (sop : BitVec 4) (other : Bool) (c : Vec4) :
    scalarResult m sop (readOf (other || scalarReads sop) c) = scalarResult m sop c := by
  by_cases h : sop = 0
  · rw [h, scalarResult_nop, scalarResult_nop]
  · have hreads : scalarReads sop = true := bne_iff_ne.mpr h
    rw [hreads, Bool.or_true, readOf, if_pos rfl]

/-- ARL reads operand A, so the write-back takes it as it is (R324). -/
theorem writeBack_readOf (q : Who) (vop sop : BitVec 4) (f : VpFields) (v sc a : Vec4) (u : VProg) (b : Bus) :
    writeBack q vop sop f v sc (readOf (vectorReads vop).1 a) u b = writeBack q vop sop f v sc a u b := by
  by_cases h : vop = 13
  · subst h; rfl
  · simp only [writeBack, if_neg h]

end Sys2Proof.Machine
end

section
/-! PROOFS. One vertex-program instruction: it is refused where it is reserved, else it writes back the results of its two opcodes
(R306, R309, R340). -/

namespace Sys2Proof.Machine
open Sys2Proof

/-- The write-back of a legal instruction, from the values of its operands (R306). -/
def executed (m : Numerics) (q : Who) (vop sop : BitVec 4) (f : VpFields) (u : VProg) (bus : Bus) : VProg × Bus :=
  let a := operandValue u f f.a
  let c := operandValue u f f.c
  writeBack q vop sop f (vectorResult vop a (operandValue u f f.b) c) (scalarResult m sop c) a u bus

theorem vpExecute_legal {vop sop : BitVec 4} {f : VpFields} (h : vpLegal vop sop f = true) (m : Numerics) (q : Who) (u : VProg) (bus : Bus) :
    vpExecute m q vop sop f u bus = .ok (executed m q vop sop f u bus) := by
  simp only [vpLegal, kindsLegal, Bool.and_eq_true] at h
  obtain ⟨hops, ⟨ha, hb⟩, hc⟩ := h
  have hops : opcodesLegal vop sop = true := Bool.and_eq_true_iff.mpr hops
  simp only [vpExecute, if_pos hops, operandIf_eq, if_pos ha, if_pos hb, if_pos hc]
  rw [executed, ← vectorResult_readOf vop (scalarReads sop), ← scalarResult_readOf m sop (vectorReads vop).2.2, ← writeBack_readOf]
  rfl

/-- A reserved opcode is refused before the operands are read, a reserved kind where the first operand of that kind is. -/
theorem vpExecute_reserved {vop sop : BitVec 4} {f : VpFields} (h : vpLegal vop sop f = false) (m : Numerics) (q : Who) (u : VProg)
    (bus : Bus) : vpExecute m q vop sop f u bus = .error (.vpReserved u.ip) := by
  unfold vpExecute
  split
  case isFalse => rfl
  case isTrue hops =>
    have hkinds : kindsLegal vop sop f ≠ true := fun hk => by
      rw [vpLegal, hk, Bool.and_true] at h
      exact Bool.false_ne_true (h.symm.trans hops)
    simp only [operandIf_eq]
    by_cases ha : (!(vectorReads vop).1 || f.a.mux != 0) = true
    case neg => rw [if_neg ha]; rfl
    by_cases hb : (!(vectorReads vop).2.1 || f.b.mux != 0) = true
    case neg => rw [if_pos ha, if_neg hb]; rfl
    have hc : ¬ (!((vectorReads vop).2.2 || scalarReads sop) || f.c.mux != 0) = true := fun hc =>
      hkinds (Bool.and_eq_true_iff.mpr ⟨Bool.and_eq_true_iff.mpr ⟨ha, hb⟩, hc⟩)
    rw [if_pos ha, if_pos hb, if_neg hc]
    rfl

/-- A legal instruction on the block's state, each result named by the value it has. -/
theorem runInstr_legal {vop sop : BitVec 4} {f : VpFields} {s : State} {V S : Vec4}
    (hV : vectorResult vop (operandValue s.vp f f.a) (operandValue s.vp f f.b) (operandValue s.vp f f.c) = V)
    (hS : scalarResult s.par.numerics sop (operandValue s.vp f f.c) = S) (h : vpLegal vop sop f = true) :
    runInstr vop sop f s = .next (afterWriteBack vop sop f V S (operandValue s.vp f f.a) s) := by
  subst hV hS
  rw [runInstr, vpExecute_legal h]
  rfl

theorem runInstr_reserved {vop sop : BitVec 4} {f : VpFields} (h : vpLegal vop sop f = false) (s : State) :
    runInstr vop sop f s = .refused (.vpReserved s.vp.ip) := by
  rw [runInstr, vpExecute_reserved h]
  rfl

/-! ### The instructions of the two slots (R137, R138) -/

/-- The instruction is the program instruction of these two opcodes and fields, seen from one of its slots. -/
structure IsProgram (i : Instr) (vop sop : BitVec 4) (f : VpFields) : Prop where
  exec_eq : ∀ s, exec i s = runInstr vop sop f s
  wellFormed_eq : WellFormed i = vpLegal vop sop f

theorem exists_isProgram {i : Instr} (h : isProgramInstr i = true) : ∃ vop sop f, IsProgram i vop sop f := by
  cases i
  case vpNop sop f | vpMov sop f | vpMul sop f | vpAdd sop f | vpMad sop f | vpDp3 sop f | vpDph sop f | vpDp4 sop f | vpDst sop f
      | vpMin sop f | vpMax sop f | vpSlt sop f | vpSge sop f | vpArl sop f => exact ⟨_, sop, f, fun _ => rfl, rfl⟩
  case vpSNop vop f | vpSImv vop f | vpSRcp vop f | vpSRcc vop f | vpSRsq vop f | vpSExp vop f | vpSLog vop f | vpSLit vop f =>
    exact ⟨vop, _, f, fun _ => rfl, rfl⟩
  -- Every other instruction stands in the command, bind or method slot.
  all_goals exact absurd h Bool.false_ne_true

theorem isProgram_of_decodeVector {vop sop : BitVec 4} {f : VpFields} {i : Instr} (h : decodeVector vop sop f = some i) :
    IsProgram i vop sop f := by
  unfold decodeVector at h
  split at h <;> cases h
  all_goals exact ⟨fun _ => rfl, rfl⟩

theorem isProgram_of_decodeScalar {vop sop : BitVec 4} {f : VpFields} {i : Instr} (h : decodeScalar vop sop f = some i) :
    IsProgram i vop sop f := by
  unfold decodeScalar at h
  split at h <;> cases h
  all_goals exact ⟨fun _ => rfl, rfl⟩

end Sys2Proof.Machine

section
open Sys2Proof Sys2Proof.Machine

/-- Settles O45: the sum is clamped to the range of the index, and each component goes through the register, the swizzle and the sign. -/
theorem operandAssembly : Obligations.OperandAssembly := by
  intro u f o
  refine ⟨cidxEff_toInt f u.a0x, fun h => operand_reserved h u f, fun h => ⟨_, operand_of_kind h u f, fun k => ?_⟩⟩
  rw [negated_get, swizzle_get]
  rfl

/-- Settles O44: the instruction runs as its two opcodes and fields, which are legal exactly where it is well-formed. -/
theorem reservedProgramInstructionsRefused : Obligations.ReservedProgramInstructionsRefused := by
  intro i s hi
  obtain ⟨vop, sop, f, hprogram⟩ := exists_isProgram hi
  rw [hprogram.wellFormed_eq, hprogram.exec_eq]
  exact ⟨fun h => runInstr_reserved h s, fun h => ⟨_, runInstr_legal rfl rfl h⟩⟩

/-- Settles O41: a legal instruction writes back its vector result, which is the formula of its rule once the opcode is named. -/
theorem vectorInstructions : Obligations.VectorInstructions := by
  intro sop f s A B C S dot result
  and_intros <;> exact runInstr_legal rfl rfl

end
end

section
/-! PROOFS. The write-back of a vertex-program instruction, component by component (R309). -/

namespace Sys2Proof.Machine
open Sys2Proof

/-! ### Masked writes -/

/-- A component's bit of a write mask; bit 3 is x (R309). -/
theorem maskWrite_get (m : BitVec 4) (val dst : Vec4) (k : BitVec 2) :
    Vec4.get (maskWrite m val dst) k = if m.getLsbD (3 - k.toNat) = true then Vec4.get val k else Vec4.get dst k := by
  rcases component_cases k with rfl | rfl | rfl | rfl <;> rfl

theorem maskSet_get (b : Bank Vec4) (i : Nat) (m : BitVec 4) (val : Vec4) (n : Nat) (k : BitVec 2) :
    Vec4.get (bankGet .zero (maskSet b i m val) n) k =
      if n = i ∧ m.getLsbD (3 - k.toNat) = true then Vec4.get val k else Vec4.get (bankGet .zero b n) k := by
  rw [maskSet, bankGet_set]
  by_cases h : n = i
  · subst h
    simp only [if_true, true_and, maskWrite_get]
  · rw [if_neg h, if_neg fun hn => h hn.1]

/-- A write whose mask is empty is left out, which no component shows. -/
theorem maskSet_get_of_nonempty (on : Bool) (b : Bank Vec4) (i : Nat) (m : BitVec 4) (val : Vec4) (n : Nat) (k : BitVec 2) :
    Vec4.get (bankGet .zero (if (on && m != 0) = true then maskSet b i m val else b) n) k =
      if on = true ∧ n = i ∧ m.getLsbD (3 - k.toNat) = true then Vec4.get val k else Vec4.get (bankGet .zero b n) k := by
  by_cases h : (on && m != 0) = true
  · rw [if_pos h, maskSet_get]
    exact if_congr (and_iff_right (Bool.and_eq_true_iff.mp h).1).symm rfl rfl
  · have hnone : ¬ (on = true ∧ n = i ∧ m.getLsbD (3 - k.toNat) = true) := fun ⟨hon, _, hbit⟩ => by
      have hm : m ≠ 0 := by rintro rfl; exact Bool.false_ne_true (BitVec.getLsbD_zero.symm.trans hbit)
      exact h (Bool.and_eq_true_iff.mpr ⟨hon, bne_iff_ne.mpr hm⟩)
    rw [if_neg h, if_neg hnone]

/-! ### What is written -/

theorem bne_zero_eq_decide (sop : BitVec 4) : (sop != 0) = decide (sop ≠ 0) := by revert sop; decide

theorem vecWrites_eq (vop : BitVec 4) : vecWrites vop = decide (vop ≠ 0 ∧ vop ≠ 13) := by revert vop; decide

/-- The temporary of the scalar result (R309). -/
theorem scaDest_eq (vop : BitVec 4) (f : VpFields) :
    scaDest vop f = if vecWrites vop = true ∧ f.vtMask ≠ 0 then 1 else f.rDst.toNat := by
  simp only [scaDest, vecToTemp, Bool.and_eq_true, bne_iff_ne]

/-- The slot that the output field names has a result to write (R309). -/
def outOn (vop sop : BitVec 4) (f : VpFields) : Bool := if f.oMux = 0 then vecWrites vop else decide (sop ≠ 0)

theorem outWrites_eq (vop sop : BitVec 4) (f : VpFields) : outWrites vop sop f = (outOn vop sop f && f.oMask != 0) := by
  rw [outWrites, outOn, Bool.and_comm]
  congr 1
  split
  · rfl
  · exact bne_zero_eq_decide sop

/-! ### Temporaries -/

theorem writeTemps_get (vop sop : BitVec 4) (f : VpFields) (v sc : Vec4) (r : Bank Vec4) (n : Nat) (k : BitVec 2) :
    Vec4.get (bankGet .zero (writeTemps vop sop f v sc r) n) k =
      if sop ≠ 0 ∧ n = scaDest vop f ∧ f.stMask.getLsbD (3 - k.toNat) = true then Vec4.get sc k
      else if vecWrites vop = true ∧ n = f.rDst.toNat ∧ f.vtMask.getLsbD (3 - k.toNat) = true then Vec4.get v k
      else Vec4.get (bankGet .zero r n) k :=
  (maskSet_get_of_nonempty (sop != 0) _ (scaDest vop f) f.stMask sc n k).trans
    (if_congr (and_congr_left' bne_iff_ne) rfl (maskSet_get_of_nonempty (vecWrites vop) r f.rDst.toNat f.vtMask v n k))

/-! ### Outputs and constants -/

/-- Where the output write lands: the output or constant index in range, or nowhere with the diagnostic (R309). -/
theorem writeOutput_eq (q : Who) (vop sop : BitVec 4) (f : VpFields) (v sc : Vec4) (u : VProg) (b : Bus) :
    writeOutput q vop sop f v sc u b =
      let val := if f.oMux = 0 then v else sc
      let n := f.oAddr.toNat
      ({ u with
          o := if (outOn vop sop f && decide (f.orb = 1 ∧ n < 16) && f.oMask != 0) = true then maskSet u.o n f.oMask val else u.o
          vpc := if (outOn vop sop f && decide (f.orb = 0 ∧ n < 192) && f.oMask != 0) = true then maskSet u.vpc n f.oMask val else u.vpc },
        if outOn vop sop f = true ∧ f.oMask ≠ 0 ∧ (f.orb = 1 ∧ 16 ≤ n ∨ f.orb = 0 ∧ 192 ≤ n) then raise q .vpOutOor b else b) := by
  unfold writeOutput
  rw [outWrites_eq]
  by_cases hon : outOn vop sop f = true
  case neg => simp [hon]
  by_cases hmask : f.oMask = 0#4
  case pos => simp [hmask]
  rcases BitVec.eq_zero_or_eq_one f.orb with h | h
  · by_cases hn : f.oAddr.toNat < 192
    · simp [hon, hmask, h, hn]
    · simp [hon, hmask, h, hn, Nat.le_of_not_lt hn]
  · by_cases hn : f.oAddr.toNat < 16
    · simp [hon, hmask, h, hn]
    · simp [hon, hmask, h, hn, Nat.le_of_not_lt hn]

end Sys2Proof.Machine

section
open Sys2Proof Sys2Proof.Machine

/-- Settles O43: the temporaries and the output or constant are masked writes, each by its own lemma. -/
theorem writeBackRegisters : Obligations.WriteBackRegisters := by
  intro q vop sop f v sc a u b
  dsimp only
  rw [← vecWrites_eq, ← scaDest_eq]
  rw [writeBack, writeOutput_eq]
  refine ⟨writeTemps_get vop sop f v sc u.r, fun n k => ?output, fun n k => ?constant, rfl, rfl, rfl⟩
  case output | constant =>
    rw [maskSet_get_of_nonempty]
    simp only [Bool.and_eq_true, decide_eq_true_eq, and_assoc]
    rfl

end
end

section
/-! PROOFS. The results of the scalar opcodes and their corners (R329 to R337). -/

namespace Sys2Proof.Machine
open Sys2Proof

/-! ### Classes of values (D2) -/

theorem fIsInf_not_nan {x : Word} (h : fIsInf x = true) : fIsNaN x = false := by
  simp only [fIsInf, fIsNaN, decide_eq_true_eq, decide_eq_false_iff_not] at *
  omega

theorem fIsZero_not_nan {x : Word} (h : fIsZero x = true) : fIsNaN x = false := by
  simp only [fIsZero, fIsNaN, decide_eq_true_eq, decide_eq_false_iff_not] at *
  omega

theorem fIsInf_not_zero {x : Word} (h : fIsInf x = true) : fIsZero x = false := by
  simp only [fIsInf, fIsZero, decide_eq_true_eq, decide_eq_false_iff_not] at *
  omega

/-- Bits put before others, as a number. -/
theorem toNat_append_eq {m n : Nat} (x : BitVec m) (y : BitVec n) : (x ++ y).toNat = x.toNat * 2 ^ n + y.toNat := by
  rw [BitVec.toNat_append, ← Nat.shiftLeft_add_eq_or_of_lt y.isLt, Nat.shiftLeft_eq]

/-- Every quiet pattern is a NaN, whatever its sign and payload. -/
theorem fIsNaN_quiet (sign : BitVec 1) (payload : BitVec 22) : fIsNaN (sign ++ 0xFF#8 ++ 1#1 ++ payload) = true := by
  have hvalue : (sign ++ 0xFF#8 ++ 1#1 ++ payload).toNat = sign.toNat * 2 ^ 31 + 0x7FC00000 + payload.toNat := by
    simp only [toNat_append_eq, BitVec.toNat_ofNat]
    omega
  have hpayload := payload.isLt
  rw [fIsNaN, fAbsNat, hvalue, decide_eq_true_eq]
  omega

theorem fIsNaN_fNaN (operation : Nat) (x y : Word) : fIsNaN (fNaN operation x y) = true := fIsNaN_quiet _ _

theorem fAbsNat_fNeg (x : Word) : fAbsNat (fNeg x) = fAbsNat x := by
  rw [fNeg, fAbsNat, BitVec.toNat_xor, Nat.xor_mod_two_pow]
  exact Nat.xor_zero _

theorem fSign_fNeg (x : Word) : fSign (fNeg x) = !fSign x := by
  have hmsb (y : Word) : fSign y = y.msb := (BitVec.msb_eq_decide y).symm
  rw [hmsb, hmsb, fNeg, BitVec.msb_xor]
  exact Bool.xor_true _

theorem fAbsNat_fAbs (x : Word) : fAbsNat (fAbs x) = fAbsNat x := by
  have hmask : (fAbs x).toNat = x.toNat % 2 ^ 31 := (BitVec.toNat_and ..).trans (Nat.and_two_pow_sub_one_eq_mod x.toNat 31)
  rw [fAbsNat, hmask, Nat.mod_mod]
  rfl

/-- The logarithm is that of the magnitude, so the sign that LOG takes off does not matter (R336). -/
theorem fLog2_fAbs (x : Word) : fLog2 (fAbs x) = fLog2 x := by
  have hmag : fMag (fAbs x) = fMag x := by simp only [fMag, fAbsNat_fAbs]
  have hpow : fIsPow2 (fAbs x) = fIsPow2 x := by rw [fIsPow2, fIsPow2, hmag]
  have hexp : fExponent (fAbs x) = fExponent x := by rw [fExponent, fExponent, hmag]
  have hfix : log2Fix (fAbs x) = log2Fix x := by simp only [log2Fix, hmag, hexp]
  rw [fLog2, fLog2, hpow, hexp, hfix]

/-- An infinity less itself is NaN. -/
theorem fIsNaN_fSub_self {x : Word} (h : fIsInf x = true) : fIsNaN (fSub x x) = true := by
  have hinf : fIsInf (fNeg x) = true := by rw [fIsInf, fAbsNat_fNeg]; exact h
  have hnan : fSub x x = fNaN 0 x (fNeg x) := by
    simp only [fSub, fAdd, fIsInf_not_nan h, fIsInf_not_nan hinf, h, hinf, fSign_fNeg, Bool.or_self, Bool.false_eq_true, if_false, if_true,
      Bool.true_and, Bool.bne_not_self]
  rw [hnan]
  exact fIsNaN_fNaN ..

/-! ### A parameter's value where the list names the operand, else its default (D20) -/

theorem getD_lookup {α : Type} [BEq α] (list : List (α × Word)) (x : α) (default : Word) :
    (∀ v, list.lookup x = some v → (list.lookup x).getD default = v) ∧ (list.lookup x = none → (list.lookup x).getD default = default) :=
  ⟨fun v h => by rw [h, Option.getD_some], fun h => by rw [h, Option.getD_none]⟩

/-! ### EXP, LOG and LIT (R335, R336, R337) -/

section corners
variable {m : Numerics} {c : Vec4}

theorem scaExp_nan (h : fIsNaN c.x = true) : scaExp m c = ⟨fNaN 6 c.x 0, fNaN 6 c.x 1, fNaN 6 c.x 2, fOne⟩ := if_pos h

theorem scaExp_inf (h : fIsInf c.x = true) :
    scaExp m c = ⟨if fSign c.x then 0 else fPosInf, fSub c.x c.x, if fSign c.x then 0 else fPosInf, fOne⟩ := by
  simp only [scaExp, fIsInf_not_nan h, h, Bool.false_eq_true, if_false, if_true]
  split <;> rfl

theorem scaExp_finite (h : fIsFinite c.x = true) :
    scaExp m c = ⟨fPow2 (fFloorInt c.x), fSub c.x (fOfInt (fFloorInt c.x)), exp2Trunc m c.x, fOne⟩ := by
  simp only [scaExp, fIsFinite_not_nan h, fIsFinite_not_inf h, Bool.false_eq_true, if_false]

theorem scaExp_w : (scaExp m c).w = fOne := by
  simp only [scaExp]
  repeat' split
  all_goals rfl

theorem scaLog_nan (h : fIsNaN c.x = true) : scaLog m c = ⟨fNaN 7 c.x 0, fNaN 7 c.x 1, fNaN 7 c.x 2, fOne⟩ := if_pos h

theorem scaLog_zero (h : fIsZero c.x = true) : scaLog m c = ⟨fNegInf, fOne, fNegInf, fOne⟩ := by
  simp only [scaLog, fIsZero_not_nan h, h, Bool.false_eq_true, if_false, if_true]

theorem scaLog_inf (h : fIsInf c.x = true) : scaLog m c = ⟨fPosInf, fOne, fPosInf, fOne⟩ := by
  simp only [scaLog, fIsInf_not_nan h, fIsInf_not_zero h, h, Bool.false_eq_true, if_false, if_true]

theorem scaLog_finite (h : fIsFinite c.x = true) (hz : fIsZero c.x = false) :
    scaLog m c = ⟨fOfInt (fExponent c.x), fMantissa c.x, log2Fn m (fAbs c.x), fOne⟩ := by
  simp only [scaLog, fIsFinite_not_nan h, fIsFinite_not_inf h, hz, Bool.false_eq_true, if_false]

theorem scaLog_w : (scaLog m c).w = fOne := by
  simp only [scaLog]
  repeat' split
  all_goals rfl

theorem litDiffuse_nan {x : Word} (h : fIsNaN x = true) : litDiffuse x = fNaN 8 x 0 := if_pos h

theorem litDiffuse_clamped {x : Word} (h : fIsNaN x = false) : litDiffuse x = fMin (fMax x 0) fOne := if_neg (Bool.eq_false_iff.mp h)

theorem scaLit_z_dark (h : fLt 0 c.x = false) : (scaLit m c).z = 0 := if_neg (Bool.eq_false_iff.mp h)

theorem scaLit_z_lit (h : fLt 0 c.x = true) : (scaLit m c).z = powFn m c.y c.w := if_pos h

end corners

end Sys2Proof.Machine

section
open Sys2Proof Sys2Proof.Machine

/-- Settles O42: the result of each scalar opcode is that of its rule, and the corners of EXP, LOG and LIT are its cases. -/
theorem scalarInstructions : Obligations.ScalarInstructions := by
  intro vop f s
  let C := operandValue s.vp f f.c
  let N := s.par.numerics
  refine ⟨runInstr_legal rfl rfl, runInstr_legal rfl rfl, runInstr_legal rfl rfl,
    fun h => ⟨rccFn N C.x, runInstr_legal rfl rfl h, getD_lookup ..⟩, runInstr_legal rfl rfl,
    fun h => ⟨scaExp N C, runInstr_legal rfl rfl h, scaExp_w, fun hx => ?expNaN, fun hx => ?expInf, fun hx => ?exp⟩,
    fun h => ⟨scaLog N C, runInstr_legal rfl rfl h, scaLog_w, fun hx => ?logNaN, scaLog_zero, scaLog_inf, fun hx hz => ?log⟩,
    fun h => ⟨scaLit N C, runInstr_legal rfl rfl h, rfl, rfl, litDiffuse_clamped, fun hx => ?litNaN, scaLit_z_dark, fun hx => ?lit⟩⟩
  case expNaN => rw [scaExp_nan hx]; exact ⟨fIsNaN_fNaN .., fIsNaN_fNaN .., fIsNaN_fNaN ..⟩
  case expInf => rw [scaExp_inf hx]; exact ⟨rfl, fIsNaN_fSub_self hx, rfl⟩
  case exp => rw [scaExp_finite hx]; exact ⟨rfl, getD_lookup ..⟩
  case logNaN => rw [scaLog_nan hx]; exact ⟨fIsNaN_fNaN .., fIsNaN_fNaN .., fIsNaN_fNaN ..⟩
  case log => rw [scaLog_finite hx hz, ← fLog2_fAbs]; exact ⟨rfl, getD_lookup ..⟩
  case litNaN => exact (congrArg fIsNaN (litDiffuse_nan hx)).trans (fIsNaN_fNaN ..)
  case lit => rw [scaLit_z_lit hx]; exact getD_lookup ..

end
end

section
/-! PROOFS. The run of a vertex: one turn of its loop, and its length (R306). -/

namespace Sys2Proof.Machine
open Sys2Proof

/-! ### One turn of the loop -/

theorem vpLoop_atEnd {u : VProg} (h : u.ip = 256) (par : Params) (q : Who) (n : Nat) (b : Bus) :
    vpLoop par q (n + 1) u b = .ok (u, raise q .vpNoEnd b) := if_pos h

theorem vpLoop_turn {u : VProg} (h : u.ip ≠ 256) (par : Params) (q : Who) (n : Nat) (b : Bus) :
    vpLoop par q (n + 1) u b =
      (vpExecute par.numerics q (vpVopBy par.tables.vpLayout (vpWordsAt u u.ip.toNat)) (vpSopBy par.tables.vpLayout (vpWordsAt u u.ip.toNat))
        (vpFieldsBy par.tables.vpLayout (vpWordsAt u u.ip.toNat)) u b).bind fun r =>
          if (vpFieldsBy par.tables.vpLayout (vpWordsAt u u.ip.toNat)).final = 1 then .ok r
          else vpLoop par q n { r.1 with ip := r.1.ip + 1 } r.2 := if_neg h

/-- `vpip` after a turn that does not end the run. -/
theorem vpExecute_nextIp {m : Numerics} {q : Who} {vop sop : BitVec 4} {f : VpFields} {u : VProg} {b : Bus} {r : VProg × Bus}
    (h : vpExecute m q vop sop f u b = .ok r) (hip : u.ip.toNat < 256) : (r.1.ip + 1).toNat = u.ip.toNat + 1 := by
  rw [vpExecute_ip h]
  bv_omega

/-! ### The length of the run -/

theorem except_bind_congr {α β : Type} {x : Except Refusal α} {f g : α → Except Refusal β} (h : ∀ a, x = .ok a → f a = g a) :
    x.bind f = x.bind g := by
  cases x with
  | ok a => exact h a rfl
  | error e => rfl

/-- More turns than there are instructions left change nothing. -/
theorem vpLoop_fuel {par : Params} {q : Who} {n m : Nat} {u : VProg} (b : Bus) (hip : u.ip.toNat ≤ 256) (hn : 257 ≤ u.ip.toNat + n)
    (hm : n ≤ m) : vpLoop par q m u b = vpLoop par q n u b := by
  induction n generalizing m u b with
  | zero => omega
  | succ n ih =>
    obtain ⟨m, rfl⟩ : ∃ k, m = k + 1 := ⟨m - 1, by omega⟩
    by_cases hend : u.ip = 256
    · rw [vpLoop_atEnd hend, vpLoop_atEnd hend]
    · have hlt : u.ip.toNat < 256 := lt_of_le_of_ne hip fun he => hend (BitVec.eq_of_toNat_eq he)
      rw [vpLoop_turn hend, vpLoop_turn hend]
      refine except_bind_congr fun r hr => ?_
      have hnext := vpExecute_nextIp hr hlt
      rw [ih r.2 (u := { r.1 with ip := r.1.ip + 1 }) (by dsimp only; omega) (by dsimp only; omega) (by omega : n ≤ m)]

/-! ### The instruction that the words decode to (R130) -/

theorem decodeBy_vector (t : Tables) (w0 w1 w2 w3 : Word) (i : Instr) :
    decodeBy t .vector [w0, w1, w2, w3] = .ok i ↔
      decodeVector (vpVopBy t.vpLayout ⟨w0, w1, w2, w3⟩) (vpSopBy t.vpLayout ⟨w0, w1, w2, w3⟩) (vpFieldsBy t.vpLayout ⟨w0, w1, w2, w3⟩) =
        some i := by
  simp only [decodeBy]
  split
  case h_1 hi => rw [hi, Except.ok.injEq, Option.some.injEq]
  case h_2 hnone => rw [hnone]; exact iff_of_false nofun nofun

theorem decodeBy_scalar (t : Tables) (w0 w1 w2 w3 : Word) (i : Instr) :
    decodeBy t .scalar [w0, w1, w2, w3] = .ok i ↔
      decodeScalar (vpVopBy t.vpLayout ⟨w0, w1, w2, w3⟩) (vpSopBy t.vpLayout ⟨w0, w1, w2, w3⟩) (vpFieldsBy t.vpLayout ⟨w0, w1, w2, w3⟩) =
        some i := by
  simp only [decodeBy]
  split
  case h_1 hi => rw [hi, Except.ok.injEq, Option.some.injEq]
  case h_2 hnone => rw [hnone]; exact iff_of_false nofun nofun

/-- The words decode, in either slot, to the instruction of their opcodes and fields. -/
theorem isProgram_of_decodeBy {t : Tables} {u : VProg} {k : Nat} {i : Instr}
    (h : decodeBy t .vector ((List.range 4).map fun j => vpiAt u k j) = .ok i ∨
      decodeBy t .scalar ((List.range 4).map fun j => vpiAt u k j) = .ok i) :
    IsProgram i (vpVopBy t.vpLayout (vpWordsAt u k)) (vpSopBy t.vpLayout (vpWordsAt u k)) (vpFieldsBy t.vpLayout (vpWordsAt u k)) := by
  rcases h with h | h
  · exact isProgram_of_decodeVector ((decodeBy_vector ..).mp h)
  · exact isProgram_of_decodeScalar ((decodeBy_scalar ..).mp h)

/-- An instruction that completes is one execution on the unit's registers and the bus. -/
theorem runInstr_next {vop sop : BitVec 4} {f : VpFields} {s t : State} (h : runInstr vop sop f s = .next t) :
    vpExecute s.par.numerics (who s) vop sop f s.vp s.bus = .ok (t.vp, t.bus) := by
  obtain ⟨r, hr, rfl⟩ := except_map_ok (ofExcept_next h)
  exact hr

/-- FINAL of the default layout is bit 0 of `w3`. -/
theorem vpFieldsBy_final (ws : VpWords) : (vpFieldsBy vpLayout ws).final = 1 ↔ wordBit ws.w3 0 = true := by
  have hfield : (vpFieldsBy vpLayout ws).final = ws.w3.extractLsb' 0 1 := rfl
  rw [hfield, ← BitVec.toNat_inj, BitVec.extractLsb'_toNat, Nat.shiftRight_eq_div_pow, wordBit, decide_eq_true_eq]
  rfl

end Sys2Proof.Machine

section
open Sys2Proof Sys2Proof.Machine

/-- Settles O46: by induction on the turns, `vpip` being one nearer to the end after each. -/
theorem programRunEnds : Obligations.ProgramRunEnds := by
  refine ⟨fun par q n m u b hip hn hm => vpLoop_fuel b hip hn hm, fun par q vtx u b n hn => ?_⟩
  have hstart : u.start.setWidth 9 = BitVec.ofNat 9 u.start.toNat := (BitVec.ofNat_toNat ..).symm
  rw [vpRun, hstart]
  refine (vpLoop_fuel b ?_ ?_ hn).symm
  · have hlt := u.start.isLt
    simp only [BitVec.toNat_ofNat]
    omega
  · omega

/-- Settles O11: the decoded instruction executes as one turn of the loop does. -/
theorem programRunsDecodedInstruction : Obligations.ProgramRunsDecodedInstruction := by
  intro s t i n hip
  refine fun hdecode hexec => ⟨?turn, fun hlayout => ?final⟩
  case turn =>
    have hne : s.vp.ip ≠ 256 := fun he => by rw [he] at hip; exact absurd hip (by decide)
    rw [(isProgram_of_decodeBy hdecode).exec_eq] at hexec
    rw [vpLoop_turn hne, runInstr_next hexec]
    rfl
  case final => rw [hlayout]; exact vpFieldsBy_final _

end
end

section
/-! PROOFS. The primitive assembler, the clipper and coverage: what the ring gives back of the vertices stored in it (R370, R371), the
size of the clipped polygon (R381), and the two sides of an edge (R392). -/

namespace Sys2Proof.Machine
open Sys2Proof

/-! ### A vertex stored (R370) -/

@[simp] theorem storeVertex_primType (p : Prim) (t : TVertex) : (storeVertex p t).primType = p.primType := rfl

@[simp] theorem storeVertex_vcount (p : Prim) (t : TVertex) : (storeVertex p t).vcount = p.vcount + 1 := rfl

@[simp] theorem storeVertex_rhead (p : Prim) (t : TVertex) : (storeVertex p t).rhead = p.rhead + 1 := rfl

/-- The keep slot lies beyond the entries that `rhead` names. -/
theorem ringAt_storeVertex (p : Prim) (t : TVertex) (i : BitVec 10) :
    ringAt (storeVertex p t) i.toNat = if i = p.rhead then t else ringAt p i.toNat := by
  have hkeep : i.toNat ≠ 1024 := by omega
  unfold ringAt storeVertex
  split <;> simp [bankGet_set, hkeep, BitVec.toNat_inj]

theorem keepSlot_storeVertex (p : Prim) (t : TVertex) :
    ringAt (storeVertex p t) 1024 = if p.primType = 7 ∧ p.vcount = 0 then t else ringAt p 1024 := by
  have hhead : 1024 ≠ p.rhead.toNat := by omega
  unfold ringAt storeVertex
  split <;> simp [bankGet_set, hhead]

theorem recent_storeVertex_zero (p : Prim) (t : TVertex) : recent (storeVertex p t) 0 = t := by
  have hback : (storeVertex p t).rhead - 1 - 0 = p.rhead := by simp
  rw [recent, hback, ringAt_storeVertex, if_pos rfl]

/-- One vertex more moves the others back by one place, as far as the ring reaches. -/
theorem recent_storeVertex_succ (p : Prim) (t : TVertex) {k : Nat} (hk : k + 1 < 1024) :
    recent (storeVertex p t) (BitVec.ofNat 10 (k + 1)) = recent p (BitVec.ofNat 10 k) := by
  have hback : (storeVertex p t).rhead - 1 - BitVec.ofNat 10 (k + 1) = p.rhead - 1 - BitVec.ofNat 10 k := by
    rw [storeVertex_rhead]; bv_omega
  have hne : p.rhead - 1 - BitVec.ofNat 10 k ≠ p.rhead := by bv_omega
  rw [recent, hback, ringAt_storeVertex, if_neg hne, recent]

/-! ### The vertices of a primitive stored (R370) -/

@[simp] theorem storeAll_primType (p : Prim) (vs : List TVertex) : (vs.foldl storeVertex p).primType = p.primType := by
  induction vs generalizing p with
  | nil => rfl
  | cons v vs ih => rw [List.foldl_cons, ih, storeVertex_primType]

theorem storeAll_vcount (p : Prim) (vs : List TVertex) :
    (vs.foldl storeVertex p).vcount = p.vcount + BitVec.ofNat 32 vs.length := by
  induction vs generalizing p with
  | nil => simp
  | cons v vs ih => rw [List.foldl_cons, ih, storeVertex_vcount, List.length_cons]; bv_omega

/-- The ring gives back the vertices stored last, whatever `rhead` was. -/
theorem recent_storeAll (p : Prim) (vs : List TVertex) {k : Nat} (hk : k < vs.length) (hring : k < 1024) :
    recent (vs.foldl storeVertex p) (BitVec.ofNat 10 k) = vs.getD (vs.length - 1 - k) .zero := by
  induction vs using List.reverseRecOn generalizing k with
  | nil => simp at hk
  | append_singleton vs t ih =>
    rw [List.foldl_append, List.foldl_cons, List.foldl_nil]
    cases k with
    | zero => simpa using recent_storeVertex_zero _ t
    | succ k =>
      have hlen : k < vs.length := by simpa using hk
      have hplace : (vs ++ [t]).length - 1 - (k + 1) = vs.length - 1 - k := by rw [List.length_append, List.length_singleton]; omega
      rw [recent_storeVertex_succ _ _ hring, ih hlen (by omega), hplace, List.getD_append _ _ _ _ (by omega)]

/-- A fan's keep slot holds its first vertex, as long as the count of the vertices does not wrap. -/
theorem keepSlot_storeAll (p : Prim) (first : TVertex) (vs : List TVertex) (htype : p.primType = 7) (hstart : p.vcount = 0)
    (hlen : vs.length < 2 ^ 32) : ringAt ((first :: vs).foldl storeVertex p) 1024 = first := by
  induction vs using List.reverseRecOn with
  | nil => exact (keepSlot_storeVertex p first).trans (if_pos ⟨htype, hstart⟩)
  | append_singleton vs t ih =>
    have hfit : vs.length + 1 < 2 ^ 32 := by simpa using hlen
    have hcount : ((first :: vs).foldl storeVertex p).vcount ≠ 0 := by
      rw [storeAll_vcount, hstart, List.length_cons]; bv_omega
    rw [← List.cons_append, List.foldl_append, List.foldl_cons, List.foldl_nil, keepSlot_storeVertex,
      if_neg fun h => hcount h.2, ih (by omega)]

/-! ### The triangles completed (R371) -/

/-- With the last four vertices and the first of a fan at hand, the assembler's triangles are those of the topology. -/
theorem completed_eq_trianglesOf {p : Prim} {n : Nat} {V : Nat → TVertex}
    (hrecent : ∀ k ≤ 3, k ≤ n → recent p (BitVec.ofNat 10 k) = V (n - k)) (hkeep : p.primType = 7 → ringAt p 1024 = V 0) :
    completed p n = trianglesOf p.primType n V := by
  have h0 : recent p 0#10 = V n := hrecent 0 (by omega) (by omega)
  have h1 : 1 ≤ n → recent p 1#10 = V (n - 1) := hrecent 1 (by omega)
  have h2 : 2 ≤ n → recent p 2#10 = V (n - 2) := hrecent 2 (by omega)
  have h3 : 3 ≤ n → recent p 3#10 = V (n - 3) := hrecent 3 (by omega)
  unfold completed trianglesOf
  split
  case h_1 hty =>
    simp only [hty, BitVec.ofNat_eq_ofNat, ↓reduceIte]
    split
    · rw [h0, h1 (by omega), h2 (by omega)]
    · rfl
  case h_2 hty =>
    simp only [hty, BitVec.ofNat_eq_ofNat, BitVec.reduceEq, ↓reduceIte]
    split
    · rfl
    · rw [h0, h1 (by omega), h2 (by omega)]
  case h_3 hty =>
    simp only [hty, BitVec.ofNat_eq_ofNat, BitVec.reduceEq, ↓reduceIte]
    split
    · rfl
    · rw [hkeep hty, h0, h1 (by omega)]
  case h_4 hty =>
    simp only [hty, BitVec.ofNat_eq_ofNat, BitVec.reduceEq, ↓reduceIte]
    split
    · rw [h0, h1 (by omega), h2 (by omega), h3 (by omega)]
    · rfl
  case h_5 hty =>
    simp only [hty, BitVec.ofNat_eq_ofNat, BitVec.reduceEq, ↓reduceIte]
    split
    · rw [if_neg (by omega)]
    · rw [if_pos (by omega), h0, h1 (by omega), h2 (by omega), h3 (by omega)]
  case h_6 h5 h6 h7 h8 h9 => exact ((if_neg h5).trans <| (if_neg h6).trans <| (if_neg h7).trans <| (if_neg h8).trans (if_neg h9)).symm

/-! ### The clipped polygon (R381) -/

theorem clipEdge_length (wEps : Word) (s e : TVertex) :
    (clipEdge wEps s e).length = (inFront wEps s).toNat + (inFront wEps s != inFront wEps e).toNat := by
  unfold clipEdge
  cases inFront wEps s <;> cases inFront wEps e <;> rfl

/-- A vertex of the polygon is one of the triangle's in front, or was cut at the threshold. -/
theorem clipEdge_atOrInFront {wEps : Word} {s e t : TVertex} (h : t ∈ clipEdge wEps s e) : t.w = wEps ∨ inFront wEps t = true := by
  rcases List.mem_append.mp h with hs | hcut
  · split at hs
    case isTrue hfront => exact .inr (List.mem_singleton.mp hs ▸ hfront)
    case isFalse => cases hs
  · split at hcut
    case isTrue => exact .inl (congrArg TVertex.w (List.mem_singleton.mp hcut))
    case isFalse => cases hcut

/-- The boundary of a triangle with vertices on both sides crosses the threshold twice. -/
theorem crossings_of_bothSides {x y z : Bool} (hsome : x.toNat + y.toNat + z.toNat ≠ 0) (hnotAll : x.toNat + y.toNat + z.toNat ≠ 3) :
    (x != y).toNat + (y != z).toNat + (z != x).toNat = 2 := by
  revert x y z
  decide

/-- The number of a triangle's vertices in front. -/
theorem countInFront_eq (wEps : Word) (a b c : TVertex) :
    [a, b, c].countP (fun t => fLt wEps t.w) = (inFront wEps a).toNat + (inFront wEps b).toNat + (inFront wEps c).toNat := by
  simp only [List.countP_cons, List.countP_nil, inFront, Bool.toNat, Bool.cond_eq_ite]
  omega

/-- The polygon has the vertices in front and the two crossings. -/
theorem clipPolygon_length {wEps : Word} {a b c : TVertex} {n : Nat} (hn : [a, b, c].countP (fun t => fLt wEps t.w) = n) (hsome : n ≠ 0)
    (hnotAll : n ≠ 3) : (clipPolygon wEps a b c).length = n + 2 := by
  rw [countInFront_eq] at hn
  have hcross := crossings_of_bothSides (hn ▸ hsome) (hn ▸ hnotAll)
  simp only [clipPolygon, List.length_append, clipEdge_length]
  omega

theorem clipPolygon_atOrInFront {wEps : Word} {a b c t : TVertex} (h : t ∈ clipPolygon wEps a b c) :
    t.w = wEps ∨ inFront wEps t = true := by
  rcases List.mem_append.mp h with hab | hca
  · rcases List.mem_append.mp hab with hab | hbc
    · exact clipEdge_atOrInFront hab
    · exact clipEdge_atOrInFront hbc
  · exact clipEdge_atOrInFront hca

/-! ### The two short paths of the clipper (R381) -/

theorem triangle_allInFront {d : Draw} {a b c : TVertex} (h : ∀ t ∈ [a, b, c], fLt d.wEps t.w = true) (sel : Shader) (bus : Bus) :
    triangle d sel a b c bus = raster d sel a b c bus := by
  have hfront : (inFront d.wEps a && inFront d.wEps b && inFront d.wEps c) = true := by simpa [inFront, and_assoc] using h
  exact if_pos hfront

theorem triangle_noneInFront {d : Draw} {a b c : TVertex} (h : ∀ t ∈ [a, b, c], ¬ fLt d.wEps t.w = true) (sel : Shader) (bus : Bus) :
    triangle d sel a b c bus = .ok bus := by
  obtain ⟨ha, hb, hc⟩ : inFront d.wEps a = false ∧ inFront d.wEps b = false ∧ inFront d.wEps c = false := by
    simpa [inFront] using h
  simp [triangle, ha, hb, hc]

/-! ### The two sides of an edge (R392) -/

theorem area_swap (a b c : TVertex) : area a c b = -area a b c := by
  unfold area
  ring

theorem edge_swap (p q : TVertex) (sx sy : Int) : edge q p sx sy = -edge p q sx sy := by
  unfold edge
  ring

theorem topLeft_swap {p q : TVertex} (h : fFix p.x ≠ fFix q.x ∨ fFix p.y ≠ fFix q.y) : topLeft p q = !topLeft q p := by
  rw [Bool.eq_iff_iff]
  simp only [topLeft, Bool.or_eq_true, Bool.and_eq_true, Bool.not_eq_true', decide_eq_true_eq, Bool.or_eq_false_iff,
    Bool.and_eq_false_iff, decide_eq_false_iff_not]
  omega

/-- One side owns a sample off the line by its sign, a sample on it by the top-left rule. -/
theorem inside_swap {p q : TVertex} (sx sy : Int) (h : fFix p.x ≠ fFix q.x ∨ fFix p.y ≠ fFix q.y) :
    inside p q sx sy = !inside q p sx sy := by
  unfold inside
  rw [edge_swap p q]
  rcases lt_trichotomy (edge p q sx sy) 0 with hneg | hon | hpos
  · simp [hneg, hneg.ne, hneg.le]
  · simp [hon, topLeft_swap h]
  · simp [hpos, hpos.ne', hpos.le]

theorem covered_swap (a b c : TVertex) (x y : Nat) : covered a b c x y = covered a c b x y := by
  unfold covered
  rw [area_swap a b c]
  rcases lt_trichotomy (area a b c) 0 with hneg | hzero | hpos
  · simp [hneg, hneg.ne, hneg.le]
  · simp [hzero]
  · simp [hpos, hpos.ne', hpos.le]

end Sys2Proof.Machine

section
open Sys2Proof Sys2Proof.Machine

/-- Settles O54: the next vertex stored, the ring gives back the last four and the keep slot the first of a fan. -/
theorem assembledTriangles : Obligations.AssembledTriangles := by
  intro p vs t hstart hlen
  have hstored : storeVertex (vs.foldl storeVertex p) t = (vs ++ [t]).foldl storeVertex p := by simp
  have hcount : (vs ++ [t]).length = vs.length + 1 := by simp
  refine ⟨?count, ?triangles⟩
  case count =>
    rw [storeAll_vcount, hstart]
    simpa using hlen
  case triangles =>
    rw [hstored, completed_eq_trianglesOf (V := fun k => (vs ++ [t]).getD k .zero) ?recent ?keep, storeAll_primType]
    case recent =>
      intro k hk hkn
      rw [recent_storeAll p (vs ++ [t]) (by omega) (by omega), hcount, Nat.add_sub_cancel]
    case keep =>
      intro htype
      rw [storeAll_primType] at htype
      cases vs with
      | nil => exact keepSlot_storeAll p t [] htype hstart (by simp)
      | cons v vs => exact keepSlot_storeAll p v (vs ++ [t]) htype hstart (by simpa using hlen)

/-- Settles O55, by which of the three vertices are in front. -/
theorem clipperPaths : Obligations.ClipperPaths := by
  intro d sel a b c bus
  refine ⟨fun h3 => ?all, fun h0 => ?none, fun h1 => ?one, fun h2 => ?two, fun t => clipPolygon_atOrInFront⟩
  case all => exact triangle_allInFront (List.countP_eq_length.mp h3) sel bus
  case none => exact triangle_noneInFront (List.countP_eq_zero.mp h0) sel bus
  case one => exact clipPolygon_length h1 (by decide) (by decide)
  case two => exact clipPolygon_length h2 (by decide) (by decide)

/-- Settles O56: swapping two vertices negates the area, and swapping the ends of an edge negates its value. -/
theorem coverageRule : Obligations.CoverageRule :=
  ⟨covered_swap, fun _ _ sx sy => inside_swap sx sy⟩

end
end

section
/-! PROOFS. The texture methods: each stores fields of its word in its unit (R420 to R425). -/

namespace Sys2Proof.Machine
open Sys2Proof

/-- An update of a unit is all that the methods do. -/
theorem setsUnit_updTex (s : State) (n : Nat) (f : TexUnit → TexUnit) : setsUnit (.next (s.updTex n f)) s n (f (texUnit s.tex n)) :=
  ⟨_, rfl, rfl, setsAt_bankSet⟩

theorem setTexFormat_eq (d : Word) (u : TexUnit) :
    setTexFormat d u =
      { u with fmt := wordBits d 15 8, mips := wordBits d 19 16, log2u := wordBits d 23 20, log2v := wordBits d 27 24 } := by
  simp only [wordBits_eq_extractLsb']; rfl

theorem setTexControl0_eq (d : Word) (u : TexUnit) :
    setTexControl0 d u = { u with enable := wordBit d 30, colorKey := wordBits d 1 0 } := by
  rw [← bitOf_eq_wordBit, wordBits_eq_extractLsb']; rfl

theorem setTexControl1_eq (d : Word) (u : TexUnit) : setTexControl1 d u = { u with pitch := wordBits d 31 16 } := by
  rw [← hi16_eq_wordBits]; rfl

theorem setTexImageRect_eq (d : Word) (u : TexUnit) :
    setTexImageRect d u = { u with rw := wordBits d 31 16, rh := wordBits d 15 0 } := by
  rw [← hi16_eq_wordBits, ← lo16_eq_wordBits]; rfl

end Sys2Proof.Machine

section
open Sys2Proof Sys2Proof.Machine

/-- Settles O34: every method is one of the six updates, of one of the four units. -/
theorem textureMethods : Obligations.TextureMethods := by
  intro d s
  have off (n : Nat) := setsUnit_updTex s n (setTexOffset d)
  have fmt (n : Nat) := setTexFormat_eq d _ ▸ setsUnit_updTex s n (setTexFormat d)
  have adr (n : Nat) := setsUnit_updTex s n (setTexAddress d)
  have ct0 (n : Nat) := setTexControl0_eq d _ ▸ setsUnit_updTex s n (setTexControl0 d)
  have ct1 (n : Nat) := setTexControl1_eq d _ ▸ setsUnit_updTex s n (setTexControl1 d)
  have rect (n : Nat) := setTexImageRect_eq d _ ▸ setsUnit_updTex s n (setTexImageRect d)
  exact ⟨off 0, off 1, off 2, off 3, fmt 0, fmt 1, fmt 2, fmt 3, adr 0, adr 1, adr 2, adr 3, ct0 0, ct0 1, ct0 2, ct0 3,
    ct1 0, ct1 1, ct1 2, ct1 3, rect 0, rect 1, rect 2, rect 3⟩

end
end

section
/-! PROOFS. The texels of a block: its colour palettes, its alpha, and the reads of its parts (R435, R436, R445 to R448). -/

namespace Sys2Proof.Machine
open Sys2Proof

/-! ### Channels (R14, R435, R436) -/

theorem pack8_toNat (a r g b : BitVec 8) :
    (pack8 a r g b).toNat = 2 ^ 24 * a.toNat + 2 ^ 16 * r.toNat + 2 ^ 8 * g.toNat + b.toNat := by
  simp only [pack8, toNat_append_eq]
  omega

theorem extractLsb'_toNat_div {w : Nat} (c : BitVec w) (lo len : Nat) : (c.extractLsb' lo len).toNat = c.toNat / 2 ^ lo % 2 ^ len := by
  rw [BitVec.extractLsb'_toNat, Nat.shiftRight_eq_div_pow]

theorem byteOf_toNat (w : Word) (k : Nat) : (byteOf w k).toNat = w.toNat / 2 ^ (8 * k) % 2 ^ 8 := extractLsb'_toNat_div w (8 * k) 8

theorem expand1_toNat (b : BitVec 1) : (expand1 b).toNat = b.toNat * 0xFF := by revert b; decide

theorem expand4_toNat (b : BitVec 4) : (expand4 b).toNat = e4 b.toNat := by revert b; decide

theorem expand5_toNat (b : BitVec 5) : (expand5 b).toNat = e5 b.toNat := by revert b; decide

theorem expand6_toNat (b : BitVec 6) : (expand6 b).toNat = e6 b.toNat := by revert b; decide

/-- A packed word by its channels, as the statements name them. -/
theorem texelIs_pack8 {a r g b : BitVec 8} {rgb : Nat → Nat} (hr : r.toNat = rgb 2) (hg : g.toNat = rgb 1) (hb : b.toNat = rgb 0) :
    texelIs (pack8 a r g b) a.toNat rgb := by
  have := a.isLt; have := r.isLt; have := g.isLt; have := b.isLt
  simp only [texelIs, byteOf_toNat, pack8_toNat]
  refine ⟨by omega, fun k hk => ?_⟩
  obtain rfl | rfl | rfl : k = 0 ∨ k = 1 ∨ k = 2 := by omega
  · omega
  · omega
  · omega

theorem channel565_lt (c k : Nat) : channel565 c k < 256 := by
  simp only [channel565, e5, e6]
  split
  · omega
  · split <;> omega

theorem rgb565_red (c : Nat) : (rgb565 c).1.toNat = channel565 c 2 := by
  rw [rgb565, expand5_toNat, channel565, if_pos rfl, extractLsb'_toNat_div, BitVec.toNat_ofNat]
  congr 1
  omega

theorem rgb565_green (c : Nat) : (rgb565 c).2.1.toNat = channel565 c 1 := by
  rw [rgb565, expand6_toNat, channel565, if_neg (by decide), if_pos rfl, extractLsb'_toNat_div, BitVec.toNat_ofNat]
  congr 1
  omega

theorem rgb565_blue (c : Nat) : (rgb565 c).2.2.toNat = channel565 c 0 := by
  rw [rgb565, expand5_toNat, channel565, if_neg (by decide), if_neg (by decide), extractLsb'_toNat_div, BitVec.toNat_ofNat]
  congr 1
  omega

/-! ### The colour palettes (R445) -/

/-- Channel `k` of entry `code` of the three-colour palette, black at code 3 (R445). -/
def paletteThreeBlack (c0 c1 code k : Nat) : Nat := if code = 3 then 0 else paletteThree c0 c1 code k

section dxtChannel
variable {c0 c1 code k : Nat} {x y : BitVec 8} (hx : x.toNat = channel565 c0 k) (hy : y.toNat = channel565 c1 k)
include hx hy

theorem dxtChannel_four : (dxtChannel true code x y).toNat = paletteFour c0 c1 code k := by
  have := channel565_lt c0 k; have := channel565_lt c1 k
  simp only [dxtChannel, paletteFour, hx, hy, apply_ite BitVec.toNat, BitVec.toNat_ofNat, if_true]
  split
  · rfl
  · split
    · rfl
    · split <;> omega

theorem dxtChannel_three (hcode : code < 4) : (dxtChannel false code x y).toNat = paletteThreeBlack c0 c1 code k := by
  have := channel565_lt c0 k; have := channel565_lt c1 k
  obtain rfl | rfl | rfl | rfl : code = 0 ∨ code = 1 ∨ code = 2 ∨ code = 3 := by omega
  · exact hx
  · exact hy
  · have hmean : (dxtChannel false 2 x y).toNat = (x.toNat + y.toNat) / 2 % 2 ^ 8 := BitVec.toNat_ofNat ..
    rw [hmean, hx, hy, Nat.mod_eq_of_lt (by omega)]
    rfl
  · rfl

end dxtChannel

section dxtRgb
variable (alpha : BitVec 8) (c0 c1 : Nat)

theorem texelIs_dxtRgb_four (code : Nat) : texelIs (dxtRgb true alpha c0 c1 code) alpha.toNat (paletteFour c0 c1 code) :=
  texelIs_pack8 (dxtChannel_four (rgb565_red c0) (rgb565_red c1)) (dxtChannel_four (rgb565_green c0) (rgb565_green c1))
    (dxtChannel_four (rgb565_blue c0) (rgb565_blue c1))

theorem texelIs_dxtRgb_three {code : Nat} (h : code < 4) :
    texelIs (dxtRgb false alpha c0 c1 code) alpha.toNat (paletteThreeBlack c0 c1 code) :=
  texelIs_pack8 (dxtChannel_three (rgb565_red c0) (rgb565_red c1) h) (dxtChannel_three (rgb565_green c0) (rgb565_green c1) h)
    (dxtChannel_three (rgb565_blue c0) (rgb565_blue c1) h)

end dxtRgb

/-! ### The texel of a DXT1 block (R446) -/

theorem texelIs_dxt1Texel_equal (c code : Nat) : texelIs (dxt1Texel c c code) 0xFF (channel565 c) := by
  rw [dxt1Texel, if_pos rfl]
  exact texelIs_dxtRgb_four 0xFF c c 0

theorem texelIs_dxt1Texel_above {c0 c1 : Nat} (h : c1 < c0) (code : Nat) :
    texelIs (dxt1Texel c0 c1 code) 0xFF (paletteFour c0 c1 code) := by
  rw [dxt1Texel, if_neg h.ne', decide_eq_true h]
  exact texelIs_dxtRgb_four 0xFF c0 c1 code

theorem dxt1Texel_transparent {c0 c1 : Nat} (h : c0 < c1) : dxt1Texel c0 c1 3 = 0 := by
  rw [dxt1Texel, if_neg h.ne, decide_eq_false h.not_gt]
  rfl

theorem texelIs_dxt1Texel_below {c0 c1 code : Nat} (h : c0 < c1) (h4 : code < 4) (h3 : code ≠ 3) :
    texelIs (dxt1Texel c0 c1 code) 0xFF (paletteThree c0 c1 code) := by
  have hpal : paletteThreeBlack c0 c1 code = paletteThree c0 c1 code := funext fun _ => if_neg h3
  rw [dxt1Texel, if_neg h.ne, decide_eq_false h.not_gt, dxtColor, if_neg (by tauto), ← hpal]
  exact texelIs_dxtRgb_three 0xFF c0 c1 h4

/-! ### The colour of a DXT3 or DXT5 block (R447) -/

/-- Channel `k` of entry `code` of the palette that `DXT35_COLOR_MODE` gives a block. -/
def modePalette (m : DxtColorMode) (c0 c1 code : Nat) : Nat → Nat :=
  match m with
  | .four => paletteFour c0 c1 code
  | .three => paletteThreeBlack c0 c1 code
  | .byOrder => if c1 < c0 then paletteFour c0 c1 code else if c0 < c1 then paletteThreeBlack c0 c1 code else channel565 c0

theorem texelIs_dxt35Texel (m : DxtColorMode) (alpha : BitVec 8) (c0 c1 : Nat) {code : Nat} (h : code < 4) :
    texelIs (dxt35Texel m alpha c0 c1 code) alpha.toNat (modePalette m c0 c1 code) := by
  cases m with
  | four => exact texelIs_dxtRgb_four alpha c0 c1 code
  | three => exact texelIs_dxtRgb_three alpha c0 c1 h
  | byOrder =>
    simp only [dxt35Texel, modePalette]
    rcases lt_trichotomy c0 c1 with hlt | rfl | hgt
    · rw [if_neg hlt.ne, decide_eq_false hlt.not_gt, if_neg hlt.not_gt, if_pos hlt]
      exact texelIs_dxtRgb_three alpha c0 c1 h
    · rw [if_pos rfl, if_neg (lt_irrefl c0), if_neg (lt_irrefl c0)]
      exact texelIs_dxtRgb_four alpha c0 c0 0
    · rw [if_neg hgt.ne', decide_eq_true hgt, if_pos hgt]
      exact texelIs_dxtRgb_four alpha c0 c1 code

/-! ### The alpha of a DXT3 or DXT5 block (R447, R448) -/

theorem expand4_ofNat (n : Nat) : (expand4 (BitVec.ofNat 4 n)).toNat = e4 (n % 16) := by rw [expand4_toNat, BitVec.toNat_ofNat]

/-- The alpha palette of 8 entries, as the statements list it (R448). -/
def alphaPalette (a0 a1 : Nat) : List Nat :=
  if a1 < a0 then
    [a0, a1, (6 * a0 + a1) / 7, (5 * a0 + 2 * a1) / 7, (4 * a0 + 3 * a1) / 7, (3 * a0 + 4 * a1) / 7, (2 * a0 + 5 * a1) / 7,
      (a0 + 6 * a1) / 7]
  else [a0, a1, (4 * a0 + a1) / 5, (3 * a0 + 2 * a1) / 5, (2 * a0 + 3 * a1) / 5, (a0 + 4 * a1) / 5, 0, 255]

theorem dxt5Alpha_eq (a0 a1 : Nat) {j : Nat} (h : j < 8) : dxt5Alpha a0 a1 j = (alphaPalette a0 a1).getD j 0 := by
  unfold dxt5Alpha alphaPalette
  by_cases hlt : a1 < a0
  · rw [if_pos hlt, if_pos hlt]
    interval_cases j <;> simp
  · rw [if_neg hlt, if_neg hlt]
    interval_cases j <;> simp

/-- The weights of an entry are 7 or 5 in all, so it is a mean of two bytes. -/
theorem dxt5Alpha_lt {a0 a1 j : Nat} (h0 : a0 < 256) (h1 : a1 < 256) (h : j < 8) : dxt5Alpha a0 a1 j < 256 := by
  have h80 : (8 - j) * a0 ≤ (8 - j) * 255 := Nat.mul_le_mul_left _ (by omega)
  have h60 : (6 - j) * a0 ≤ (6 - j) * 255 := Nat.mul_le_mul_left _ (by omega)
  have hj1 : (j - 1) * a1 ≤ (j - 1) * 255 := Nat.mul_le_mul_left _ (by omega)
  unfold dxt5Alpha
  split_ifs <;> omega

theorem dxt5Alpha_byte {a0 a1 j : Nat} (h0 : a0 < 256) (h1 : a1 < 256) (h : j < 8) :
    (BitVec.ofNat 8 (dxt5Alpha a0 a1 j)).toNat = (alphaPalette a0 a1).getD j 0 := by
  rw [BitVec.toNat_ofNat, Nat.mod_eq_of_lt (dxt5Alpha_lt h0 h1 h), dxt5Alpha_eq a0 a1 h]

/-! ### The reads of a block (R446 to R448) -/

section reads
variable (q : Who) (m : DxtColorMode) (a : Word) (i : Nat)

/-- What a colour part holds, whatever reads went before. -/
theorem readColorPart_value {b b' : Bus} (h : b'.mem = b.mem) :
    (readColorPart q a i b').1 =
      ((memRead q 2 a b).1, (memRead q 2 (a + 2) b).1, (memRead q 4 (a + 4) b).1 / 4 ^ i % 4) := by
  have h1 : (memRead q 2 a b').2.mem = b.mem := (memRead_mem ..).trans h
  have h2 : (memRead q 2 (a + 2) (memRead q 2 a b').2).2.mem = b.mem := (memRead_mem ..).trans h1
  simp only [readColorPart, memRead_of_mem_eq q _ _ h, memRead_of_mem_eq q _ _ h1, memRead_of_mem_eq q _ _ h2]

theorem sampleDxt1_value (b : Bus) :
    (sampleDxt1 q a i b).1 =
      dxt1Texel (memRead q 2 a b).1 (memRead q 2 (a + 2) b).1 ((memRead q 4 (a + 4) b).1 / 4 ^ i % 4) := by
  simp only [sampleDxt1, readColorPart_value q a i (rfl : b.mem = b.mem)]

/-- The colour that the colour part of a DXT3 or DXT5 block gives, with alpha `alpha` (R447). -/
def blockColor (alpha : BitVec 8) (b : Bus) : Word :=
  dxt35Texel m alpha (memRead q 2 (a + 8) b).1 (memRead q 2 (a + 10) b).1 ((memRead q 4 (a + 12) b).1 / 4 ^ i % 4)

/-- The colour part stands 8 bytes into the block (R447). -/
theorem blockColor_of_readColorPart (alpha : BitVec 8) {b b' : Bus} (h : b'.mem = b.mem) :
    (let r := readColorPart q (a + 8) i b'; dxt35Texel m alpha r.1.1 r.1.2.1 r.1.2.2) = blockColor q m a i alpha b := by
  have h10 : a + 8 + 2 = a + 10 := by rw [BitVec.add_assoc]; rfl
  have h12 : a + 8 + 4 = a + 12 := by rw [BitVec.add_assoc]; rfl
  simp only [readColorPart_value q (a + 8) i h, h10, h12, blockColor]

theorem sampleDxt3_value (b : Bus) :
    (sampleDxt3 q m a i b).1 = blockColor q m a i (expand4 (BitVec.ofNat 4 ((memRead q 8 a b).1 / 16 ^ i))) b :=
  blockColor_of_readColorPart q m a i _ (memRead_mem ..)

theorem sampleDxt5_value (b : Bus) :
    (sampleDxt5 q m a i b).1 =
      blockColor q m a i
        (BitVec.ofNat 8 (dxt5Alpha (memRead q 1 a b).1 (memRead q 1 (a + 1) b).1 ((memRead q 6 (a + 2) b).1 / 8 ^ i % 8))) b := by
  have h1 : (memRead q 1 a b).2.mem = b.mem := memRead_mem ..
  have h2 : (memRead q 1 (a + 1) (memRead q 1 a b).2).2.mem = b.mem := (memRead_mem ..).trans h1
  have h3 := (memRead_mem q 6 (a + 2) (memRead q 1 (a + 1) (memRead q 1 a b).2).2).trans h2
  rw [← memRead_of_mem_eq q 1 (a + 1) h1, ← memRead_of_mem_eq q 6 (a + 2) h2]
  exact blockColor_of_readColorPart q m a i _ h3

/-- A block's texel has the alpha of its alpha part and the colour of its palette. -/
theorem texelIs_blockColor (alpha : BitVec 8) (b : Bus) :
    texelIs (blockColor q m a i alpha b) alpha.toNat
      (modePalette m (memRead q 2 (a + 8) b).1 (memRead q 2 (a + 10) b).1 ((memRead q 4 (a + 12) b).1 / 4 ^ i % 4)) :=
  texelIs_dxt35Texel m alpha _ _ (Nat.mod_lt _ (by decide))

theorem texelIs_sampleDxt3 (b : Bus) :
    texelIs (sampleDxt3 q m a i b).1 (e4 ((memRead q 8 a b).1 / 16 ^ i % 16))
      (modePalette m (memRead q 2 (a + 8) b).1 (memRead q 2 (a + 10) b).1 ((memRead q 4 (a + 12) b).1 / 4 ^ i % 4)) := by
  rw [sampleDxt3_value, ← expand4_ofNat]
  exact texelIs_blockColor ..

theorem texelIs_sampleDxt5 (b : Bus) :
    texelIs (sampleDxt5 q m a i b).1
      ((alphaPalette (memRead q 1 a b).1 (memRead q 1 (a + 1) b).1).getD ((memRead q 6 (a + 2) b).1 / 8 ^ i % 8) 0)
      (modePalette m (memRead q 2 (a + 8) b).1 (memRead q 2 (a + 10) b).1 ((memRead q 4 (a + 12) b).1 / 4 ^ i % 4)) := by
  rw [sampleDxt5_value, ← dxt5Alpha_byte (memRead_lt q 1 a b) (memRead_lt q 1 (a + 1) b) (Nat.mod_lt _ (by decide))]
  exact texelIs_blockColor ..

end reads

end Sys2Proof.Machine

section
open Sys2Proof Sys2Proof.Machine

/-- Settles O35: the texel of each block by the order of its two colours, and by the colour mode. -/
theorem blockTexels : Obligations.BlockTexels := by
  intro q m a i b
  have hzero : a + 0 = a := BitVec.add_zero a
  have hcode : (memRead q 4 (a + 4) b).1 / 4 ^ i % 4 < 4 := Nat.mod_lt _ (by decide)
  simp only [hzero, sampleDxt1_value]
  refine ⟨fun heq => ?equal, fun h => texelIs_dxt1Texel_above h _, fun h h3 => ?transparent,
    fun h h3 => texelIs_dxt1Texel_below h hcode h3, ?dxt3, ?dxt5, (sampleDxt1_readsOnly q a i b).1,
    (sampleDxt3_readsOnly q m a i b).1, (sampleDxt5_readsOnly q m a i b).1⟩
  case equal => rw [← heq]; exact texelIs_dxt1Texel_equal _ _
  case transparent => rw [h3]; exact dxt1Texel_transparent h
  case dxt3 => cases m <;> exact texelIs_sampleDxt3 ..
  case dxt5 =>
    have h := texelIs_sampleDxt5 q m a i b
    rw [alphaPalette, apply_ite (List.getD · _ 0)] at h
    cases m <;> exact h

end
end

section
/-! PROOFS. Texture coordinates and the sampler: the floor, the wrap, the texel address and the channels of each format (R430 to R434,
R440 to R444, R449). -/

namespace Sys2Proof.Machine
open Sys2Proof

/-! ### The floor of a coordinate (R430) -/

/-- `n` is the floor of the binary32 pattern `x`: 0 for a NaN, saturated at the ends of 32 bits. -/
def FloorIs (x : Word) (n : Int) : Prop :=
  (fIsNaN x = true → n = 0) ∧ (fIsInf x = true → n = if fSign x then -2 ^ 31 else 2 ^ 31 - 1) ∧
  (fIsFinite x = true →
    (fFix x < -2 ^ 31 * 2 ^ 149 → n = -2 ^ 31) ∧ (2 ^ 31 * 2 ^ 149 ≤ fFix x → n = 2 ^ 31 - 1) ∧
    (-2 ^ 31 * 2 ^ 149 ≤ fFix x → fFix x < 2 ^ 31 * 2 ^ 149 → n * 2 ^ 149 ≤ fFix x ∧ fFix x < (n + 1) * 2 ^ 149))

theorem fFloorSat_finite {x : Word} (h : fIsFinite x = true) : fFloorSat x = max (-2 ^ 31) (min (2 ^ 31 - 1) (fFix x / 2 ^ 149)) := by
  rw [fFloorSat, fIsFinite_not_nan h, fIsFinite_not_inf h]
  rfl

theorem fFloorSat_floorIs (x : Word) : FloorIs x (fFloorSat x) := by
  refine ⟨fun hnan => if_pos hnan, fun hinf => ?infinite, fun hfin => ?finite⟩
  case infinite => rw [fFloorSat, fIsInf_not_nan hinf, if_pos hinf]; rfl
  case finite =>
    rw [fFloorSat_finite hfin]
    omega

/-! ### Formats and sizes (R151, R47) -/

/-- The linear rectangle formats (R151). -/
abbrev RectFormat (fmt : BitVec 8) : Prop := fmt = 0x10 ∨ fmt = 0x11 ∨ fmt = 0x12 ∨ fmt = 0x1D ∨ fmt = 0x1E

theorem texRect_iff (t : TexUnit) : texRect t = true ↔ RectFormat t.fmt := by
  simp only [texRect, Bool.or_eq_true, decide_eq_true_eq, or_assoc]

theorem texW_eq (t : TexUnit) : texW t = if RectFormat t.fmt then t.rw.toNat else 2 ^ t.log2u.toNat := by
  simp only [texW, texRect_iff]

theorem texH_eq (t : TexUnit) : texH t = if RectFormat t.fmt then t.rh.toNat else 2 ^ t.log2v.toNat := by
  simp only [texH, texRect_iff]

theorem tcoord_rect {t : TexUnit} (h : RectFormat t.fmt) (u v : Word) : tcoord t u v = (fFloorSat u, fFloorSat v) :=
  if_pos ((texRect_iff t).mpr h)

theorem tcoord_normalised {t : TexUnit} (h : ¬ RectFormat t.fmt) (u v : Word) :
    tcoord t u v = (fFloorSat (fMul u (fOfInt ((2 ^ t.log2u.toNat : Nat) : Int))),
      fFloorSat (fMul v (fOfInt ((2 ^ t.log2v.toNat : Nat) : Int)))) := by
  rw [tcoord, if_neg (mt (texRect_iff t).mp h), texW_eq, texH_eq, if_neg h, if_neg h]

theorem texKind_unsupported_iff (fmt : BitVec 8) :
    texKind fmt = .unsupported ↔
      ¬ (RectFormat fmt ∨ fmt = 0x02 ∨ fmt = 0x04 ∨ fmt = 0x05 ∨ fmt = 0x06 ∨ fmt = 0x07 ∨ fmt = 0x0C ∨ fmt = 0x0E ∨ fmt = 0x0F) := by
  revert fmt
  decide

/-- The formats of each kind (R151). -/
theorem texKind_table (fmt : BitVec 8) :
    (fmt = 0x06 ∨ fmt = 0x12 → texKind fmt = .a8r8g8b8) ∧ (fmt = 0x07 ∨ fmt = 0x1E → texKind fmt = .x8r8g8b8) ∧
    (fmt = 0x05 ∨ fmt = 0x11 → texKind fmt = .r5g6b5) ∧ (fmt = 0x02 ∨ fmt = 0x10 → texKind fmt = .a1r5g5b5) ∧
    (fmt = 0x04 ∨ fmt = 0x1D → texKind fmt = .a4r4g4b4) ∧ (fmt = 0x0C → texKind fmt = .dxt1) ∧
    (fmt = 0x0E → texKind fmt = .dxt3) ∧ (fmt = 0x0F → texKind fmt = .dxt5) := by
  revert fmt
  decide

/-! ### Wrap and address (R431 to R433, R449) -/

/-- The wrapped coordinate is the one below `n` that is congruent (R431, R433). -/
theorem wrapCoord_eq {c : Int} {n x : Nat} (hx : x < n) (h : (c - x) % n = 0) : wrapCoord c n = x := by
  have hmod : c % n = x % n := Int.emod_eq_emod_iff_emod_sub_eq_zero.mpr h
  rw [wrapCoord, hmod, ← Int.natCast_mod, Nat.mod_eq_of_lt hx, Int.toNat_natCast]

theorem texelAddr_eq (t : TexUnit) (bpp x y : Nat) :
    texelAddr t bpp x y =
      t.offset + BitVec.ofNat 32 (if RectFormat t.fmt then y * t.pitch.toNat + x * bpp
        else (dilate0 x (min t.log2u.toNat t.log2v.toNat) + dilate1 y (min t.log2u.toNat t.log2v.toNat)) * bpp) := by
  simp only [texelAddr, texRect_iff, texDil]
  split <;> rfl

section sample
variable {q : Who} {m : DxtColorMode} {t : TexUnit} {b : Bus}

theorem sample_unsupported (c : Int × Int) (h : texKind t.fmt = .unsupported) :
    sample q m t c b = (0, raise q .unsupportedTextureFormat b) := if_pos h

theorem sample_empty (c : Int × Int) (hk : texKind t.fmt ≠ .unsupported) (h : texW t = 0 ∨ texH t = 0) :
    sample q m t c b = (0, raise q .emptyTexture b) := (if_neg hk).trans (if_pos h)

theorem sample_wrapped {ui vi : Int} {x y : Nat} (hk : texKind t.fmt ≠ .unsupported) (hx : x < texW t) (hy : y < texH t)
    (hu : (ui - x) % (texW t : Int) = 0) (hv : (vi - y) % (texH t : Int) = 0) :
    sample q m t (ui, vi) b = sampleAt q m t x y b := by
  rw [sample, if_neg hk, if_neg (by omega), wrapCoord_eq hx hu, wrapCoord_eq hy hv]

end sample

/-! ### Uncompressed texels (R440 to R444) -/

theorem decodeTexel_x8r8g8b8 (c : Word) : (decodeTexel .x8r8g8b8 c).toNat = 0xFF * 2 ^ 24 + c.toNat % 2 ^ 24 := by
  have hc : field c 24 8 ++ field c 0 24 = c := (field_append_field c 0 24 8).trans (field_all c)
  have htop : decodeTexel .x8r8g8b8 c = BitVec.allOnes 8 ++ field c 0 24 := calc
    c ||| 0xFF000000 = (field c 24 8 ++ field c 0 24) ||| (BitVec.allOnes 8 ++ 0#24) := congrArg (· ||| _) hc.symm
    _ = (field c 24 8 ||| BitVec.allOnes 8) ++ (field c 0 24 ||| 0#24) := BitVec.or_append
    _ = BitVec.allOnes 8 ++ field c 0 24 := by rw [BitVec.or_allOnes, BitVec.or_zero]
  have hlow : (field c 0 24).toNat = c.toNat % 2 ^ 24 := by rw [field, extractLsb'_toNat_div, pow_zero, Nat.div_one]
  rw [htop, toNat_append_eq, hlow]
  rfl

/-- The kinds whose texel is a word of its own, not part of a block. -/
def TexKind.uncompressed (k : TexKind) : Bool := k != .dxt1 && k != .dxt3 && k != .dxt5 && k != .unsupported

/-- The texel of an uncompressed kind as a number, from the number `c` that its bytes are (R440 to R444). -/
def texelNumber (k : TexKind) (c : Nat) : Nat :=
  let bits := fun hi lo => c / 2 ^ lo % 2 ^ (hi + 1 - lo)
  let channels := fun A R G B => 2 ^ 24 * A + 2 ^ 16 * R + 2 ^ 8 * G + B
  match k with
  | .a8r8g8b8 => c
  | .x8r8g8b8 => 0xFF * 2 ^ 24 + c % 2 ^ 24
  | .r5g6b5 => channels 0xFF (e5 (bits 15 11)) (e6 (bits 10 5)) (e5 (bits 4 0))
  | .a1r5g5b5 => channels (bits 15 15 * 0xFF) (e5 (bits 14 10)) (e5 (bits 9 5)) (e5 (bits 4 0))
  | .a4r4g4b4 => channels (e4 (bits 15 12)) (e4 (bits 11 8)) (e4 (bits 7 4)) (e4 (bits 3 0))
  | .dxt1 | .dxt3 | .dxt5 | .unsupported => 0

theorem decodeTexel_toNat (k : TexKind) (c : Word) : (decodeTexel k c).toNat = texelNumber k c.toNat := by
  cases k with
  | a8r8g8b8 => rfl
  | x8r8g8b8 => exact decodeTexel_x8r8g8b8 c
  | r5g6b5 =>
    simp only [decodeTexel, pack8_toNat, expand5_toNat, expand6_toNat, extractLsb'_toNat_div]
    rfl
  | a1r5g5b5 =>
    simp only [decodeTexel, pack8_toNat, expand1_toNat, expand5_toNat, extractLsb'_toNat_div]
    rfl
  | a4r4g4b4 =>
    simp only [decodeTexel, pack8_toNat, expand4_toNat, extractLsb'_toNat_div]
    rfl
  | dxt1 | dxt3 | dxt5 | unsupported => rfl

theorem memReadWord_toNat {n : Nat} (hn : n ≤ 4) (q : Who) (a : Word) (b : Bus) : (memReadWord q n a b).1.toNat = (memRead q n a b).1 :=
  Nat.mod_eq_of_lt ((memRead_lt q n a b).trans_le (Nat.pow_le_pow_right (by decide) hn : 256 ^ n ≤ 256 ^ 4))

/-- The texel and the bus after it, by the kind and its size in bytes. -/
theorem sampleAt_uncompressed {q : Who} {m : DxtColorMode} {t : TexUnit} {x y n : Nat} {b : Bus} {k : TexKind}
    (hk : texKind t.fmt = k) (h : k.uncompressed = true) (hn : texBpp k = n) :
    (sampleAt q m t x y b).1.toNat = texelNumber k (memRead q n (texelAddr t n x y) b).1 ∧
      (sampleAt q m t x y b).2 = (memRead q n (texelAddr t n x y) b).2 := by
  have hsize : n ≤ 4 := by rw [← hn, texBpp]; split <;> decide
  have hword : sampleAt q m t x y b =
      (decodeTexel k (memReadWord q n (texelAddr t n x y) b).1, (memReadWord q n (texelAddr t n x y) b).2) := by
    simp only [TexKind.uncompressed, Bool.and_eq_true, bne_iff_ne] at h
    obtain ⟨⟨⟨h1, h3⟩, h5⟩, -⟩ := h
    simp only [sampleAt, hk, hn, if_neg h1, if_neg h3, if_neg h5]
  rw [hword, decodeTexel_toNat, memReadWord_toNat hsize]
  exact ⟨rfl, rfl⟩

/-! ### Block addresses (R432) -/

theorem blockAddr_eq (t : TexUnit) (size x y : Nat) :
    blockAddr t size x y =
      t.offset + BitVec.ofNat 32 ((y / 4 * max 1 ((if RectFormat t.fmt then t.rw.toNat else 2 ^ t.log2u.toNat) / 4) + x / 4) * size) := by
  rw [blockAddr, texW_eq]

end Sys2Proof.Machine

section
open Sys2Proof Sys2Proof.Machine

/-- Settles O36: the floor by its definition, and the sampler by the kind of the unit's format. -/
theorem textureSampling : Obligations.TextureSampling := by
  refine ⟨fun t u v => ⟨fun h => ?rect, fun h => ?normalised⟩, fun q m t ui vi b =>
    ⟨fun h => ?unsupported, fun hrect h => ?empty, fun x y hx hy hu hv => ?texel⟩⟩
  case rect => rw [tcoord_rect h]; exact ⟨fFloorSat_floorIs u, fFloorSat_floorIs v⟩
  case normalised => rw [tcoord_normalised h]; exact ⟨fFloorSat_floorIs _, fFloorSat_floorIs _⟩
  case unsupported => exact sample_unsupported _ ((texKind_unsupported_iff t.fmt).mpr h)
  case empty =>
    rw [← texW_eq, ← texH_eq] at h
    exact sample_empty _ (fun hk => (texKind_unsupported_iff t.fmt).mp hk (.inl hrect)) h
  case texel =>
    rw [← texW_eq] at hx hu
    rw [← texH_eq] at hy hv
    have hat {k : TexKind} (hk : texKind t.fmt = k) (hknown : k ≠ .unsupported) :
        sample q m t (ui, vi) b = sampleAt q m t x y b := sample_wrapped (hk ▸ hknown) hx hy hu hv
    obtain ⟨ha8, hx8, hr5, ha1, ha4, hd1, hd3, hd5⟩ := texKind_table t.fmt
    dsimp only
    simp only [← texelAddr_eq, ← blockAddr_eq]
    refine ⟨fun h => ?a8r8g8b8, fun h => ?x8r8g8b8, fun h => ?r5g6b5, fun h => ?a1r5g5b5, fun h => ?a4r4g4b4, fun h => ?dxt1,
      fun h => ?dxt3, fun h => ?dxt5⟩
    case a8r8g8b8 => rw [hat (ha8 h) (by decide)]; exact sampleAt_uncompressed (ha8 h) rfl rfl
    case x8r8g8b8 => rw [hat (hx8 h) (by decide)]; exact sampleAt_uncompressed (hx8 h) rfl rfl
    case r5g6b5 => rw [hat (hr5 h) (by decide)]; exact sampleAt_uncompressed (hr5 h) rfl rfl
    case a1r5g5b5 => rw [hat (ha1 h) (by decide)]; exact sampleAt_uncompressed (ha1 h) rfl rfl
    case a4r4g4b4 => rw [hat (ha4 h) (by decide)]; exact sampleAt_uncompressed (ha4 h) rfl rfl
    case dxt1 => rw [hat (hd1 h) (by decide), sampleAt, hd1 h]; rfl
    case dxt3 => rw [hat (hd3 h) (by decide), sampleAt, hd3 h]; rfl
    case dxt5 => rw [hat (hd5 h) (by decide), sampleAt, hd5 h]; rfl

end
end

section
/-! PROOFS. The combiner methods: each stores its word in its stage or in the final stage's configuration (R470 to R476). -/

namespace Sys2Proof.Machine
open Sys2Proof

/-- An update of a stage is all that the stage methods do. -/
theorem setsStage_updStage (s : State) (st : BitVec 3) (f : CmbStage → CmbStage) :
    setsStage (.next (s.updStage st f)) s st (f (stageAt s.cmb st.toNat)) :=
  ⟨_, rfl, rfl, setsAt_bankSet⟩

theorem byteOf_zero_toNat (d : Word) : (byteOf d 0).toNat = d.toNat % 256 := by
  rw [byteOf_toNat, Nat.mul_zero, pow_zero, Nat.div_one]; rfl

theorem stageCount_eq (d : Word) : stageCount d = BitVec.ofNat 4 (min (d.toNat % 256) 8) := by
  rw [stageCount, byteOf_zero_toNat]
  split
  case isTrue h =>
    apply BitVec.eq_of_toNat_eq
    rw [extractLsb'_toNat_div, Nat.min_eq_left h, BitVec.toNat_ofNat]
    omega
  case isFalse h => rw [Nat.min_eq_right (by omega)]; rfl

theorem exec_combinerControl (d : Word) (s : State) :
    exec (.combinerControl d) s = .next { s with
      cmb := { s.cmb with stages := BitVec.ofNat 4 (min (d.toNat % 256) 8) }
      bus := { s.bus with diag := s.bus.diag ++ (if 8 < d.toNat % 256 then [⟨.cmbStages, s.cur, (curChan s).get⟩] else []) } } := by
  rw [← stageCount_eq, ← byteOf_zero_toNat]
  change execCombinerControl d s = _
  rw [execCombinerControl]
  split
  case isTrue => rfl
  case isFalse => rw [List.append_nil]

end Sys2Proof.Machine

section
open Sys2Proof Sys2Proof.Machine

/-- Settles O37: the stage methods are updates of one stage, the others store by definition, and the stage count is capped. -/
theorem combinerMethods : Obligations.CombinerMethods := by
  intro st d s
  exact ⟨setsStage_updStage .., setsStage_updStage .., setsStage_updStage .., setsStage_updStage .., setsStage_updStage ..,
    setsStage_updStage .., rfl, rfl, rfl, rfl, _, exec_combinerControl d s, rfl, rfl⟩

end
end

section
/-! PROOFS. A general combiner stage: the registers behind the codes, the two portions of the stage and the writes of their results (R481 to
R487). -/

namespace Sys2Proof.Machine
open Sys2Proof

/-! ### Registers and inputs (R481, R482) -/

/-- The codes that a general stage may not read. -/
theorem cmbReg_reserved {g : CmbRegs} (hg : g.final = false) {code : BitVec 4} (h : code = 6 ∨ code = 7 ∨ code = 14 ∨ code = 15) :
    cmbReg g code = .error .cmbReserved := by
  have hfinal : ¬ g.final = true := by rw [hg]; decide
  rcases h with rfl | rfl | rfl | rfl
  · rfl
  · rfl
  · exact if_neg hfinal
  · exact if_neg hfinal

theorem cmbInputRgb_of_reg {g : CmbRegs} {byte : BitVec 8} {v : Vec4} (h : cmbReg g (byte.extractLsb' 0 4) = .ok v) :
    cmbInputRgb g byte = .ok (Rgb.map (cmbMap (byte.extractLsb' 5 3)) (if byte.getLsbD 4 then rep3 v.w else rgbOf v)) := by
  rw [cmbInputRgb, h]; rfl

theorem cmbInputAlpha_of_reg {g : CmbRegs} {byte : BitVec 8} {v : Vec4} (h : cmbReg g (byte.extractLsb' 0 4) = .ok v) :
    cmbInputAlpha g byte = .ok (cmbMap (byte.extractLsb' 5 3) (if byte.getLsbD 4 then v.w else v.z)) := by
  rw [cmbInputAlpha, h]; rfl

/-! ### The output mapping (R486) -/

/-- An operation that is not reserved has a scale, with which its mapping is the one that the statements name. -/
theorem cmbScale_outmapOf {op : BitVec 3} (h5 : op.toNat ≠ 5) (h7 : op.toNat ≠ 7) :
    ∃ scale, cmbScale op = .ok scale ∧ outmapAt op scale = outmapOf op.toNat := by
  unfold cmbScale
  split
  case h_7 => exfalso; revert op; decide
  all_goals exact ⟨_, rfl, rfl⟩

theorem ocwOp_eq_wordBits (ocw : Word) : ocwOp ocw = wordBits ocw 17 15 := (wordBits_eq_extractLsb' ocw 17 15).symm

/-! ### The two portions (R485) -/

/-- AB or CD of the RGB portion: a product of each component, or the dot product in all three. -/
def rgbProduct (dot : Bool) (a b : Rgb) : Rgb := if dot then rep3 (dot3 a b) else Rgb.zip fMul a b

/-- The sum of AB and CD, or the one that the mux picks. -/
def sumOrMux {α : Type} (g : CmbRegs) (mux : Bool) (add : α → α → α) (ab cd : α) : α :=
  if mux then (if muxPicksCd g then cd else ab) else add ab cd

/-- AB, CD and the third result, each mapped. -/
def mappedResults {α : Type} (map : α → α) (ab cd sm : α) : CmbOut α := ⟨map ab, map cd, map sm⟩

section portions
variable {g : CmbRegs} {icw ocw : Word} (h5 : (wordBits ocw 17 15).toNat ≠ 5) (h7 : (wordBits ocw 17 15).toNat ≠ 7)
include h5 h7

theorem stageRgb_of_inputs {a b c d : Rgb} (ha : cmbInputRgb g (byteOf icw 3) = .ok a) (hb : cmbInputRgb g (byteOf icw 2) = .ok b)
    (hc : cmbInputRgb g (byteOf icw 1) = .ok c) (hd : cmbInputRgb g (byteOf icw 0) = .ok d) :
    let ab := rgbProduct (wordBit ocw 13) a b
    let cd := rgbProduct (wordBit ocw 12) c d
    stageRgb g icw ocw = .ok (mappedResults (Rgb.map (outmapOf (wordBits ocw 17 15).toNat)) ab cd
      (sumOrMux g (wordBit ocw 14) (Rgb.zip fAdd) ab cd)) := by
  obtain ⟨scale, hscale, hmap⟩ := cmbScale_outmapOf h5 h7
  simp only [stageRgb, icwByte, ha, hb, hc, hd, ocwOp_eq_wordBits, hscale, bitOf_eq_wordBit, ← hmap]
  rfl

theorem stageAlpha_of_inputs {a b c d : Word} (ha : cmbInputAlpha g (byteOf icw 3) = .ok a) (hb : cmbInputAlpha g (byteOf icw 2) = .ok b)
    (hc : cmbInputAlpha g (byteOf icw 1) = .ok c) (hd : cmbInputAlpha g (byteOf icw 0) = .ok d) :
    stageAlpha g icw ocw = .ok (mappedResults (outmapOf (wordBits ocw 17 15).toNat) (fMul a b) (fMul c d)
      (sumOrMux g (wordBit ocw 14) fAdd (fMul a b) (fMul c d))) := by
  obtain ⟨scale, hscale, hmap⟩ := cmbScale_outmapOf h5 h7
  simp only [stageAlpha, icwByte, ha, hb, hc, hd, ocwOp_eq_wordBits, hscale, bitOf_eq_wordBit, ← hmap]
  rfl

end portions

/-! ### The writes (R487) -/

/-- The destination fields of an output-mapping word (R154), by division. -/
theorem cmbWrites_eq {α : Type} (q : Who) (ocw : Word) (upd : α → Vec4 → Vec4) (o : CmbOut α) (r : CmbRegs × Bus) :
    cmbWrites q ocw upd o r =
      cmbWrite q (BitVec.ofNat 4 (ocw.toNat / 2 ^ 8)) (upd o.sm) (cmbWrite q (BitVec.ofNat 4 (ocw.toNat / 2 ^ 0)) (upd o.cd)
        (cmbWrite q (BitVec.ofNat 4 (ocw.toNat / 2 ^ 4)) (upd o.ab) r)) := by
  have hfield (lo : Nat) : BitVec.ofNat 4 (ocw.toNat / 2 ^ lo) = ocw.extractLsb' lo 4 := by
    rw [BitVec.extractLsb', Nat.shiftRight_eq_div_pow]
  rw [hfield, hfield, hfield]
  rfl

theorem generalStage_of_portions {q : Who} {st : CmbStage} {g : CmbRegs} {bus : Bus} {rgb : CmbOut Rgb} {al : CmbOut Word}
    (hrgb : stageRgb { g with color0 := from8v st.fac0, color1 := from8v st.fac1 } st.cicw st.cocw = .ok rgb)
    (hal : stageAlpha { g with color0 := from8v st.fac0, color1 := from8v st.fac1 } st.aicw st.aocw = .ok al) :
    generalStage q st (g, bus) =
      .ok (cmbWrites q st.aocw (fun a v => withAlpha v a) al (cmbWrites q st.cocw (fun c v => withRgb v c) rgb
        ({ g with color0 := from8v st.fac0, color1 := from8v st.fac1 }, bus))) := by
  simp only [generalStage, hrgb, hal]
  rfl

/-- The codes that a result may be written to. -/
abbrev Writable (code : BitVec 4) : Prop := code = 4 ∨ code = 5 ∨ 8 ≤ code.toNat ∧ code.toNat ≤ 13

theorem writable_iff (code : BitVec 4) :
    Writable code ↔ code = 4 ∨ code = 5 ∨ code = 8 ∨ code = 9 ∨ code = 10 ∨ code = 11 ∨ code = 12 ∨ code = 13 := by
  unfold Writable; revert code; decide

section writes
variable (q : Who) {code : BitVec 4} (upd : Vec4 → Vec4) (g : CmbRegs) (b : Bus)

/-- A writable code names a register, whose value is replaced. -/
theorem cmbReg_cmbWrite_same (h : Writable code) :
    ∃ v, cmbReg g code = .ok v ∧ cmbReg (cmbWrite q code upd (g, b)).1 code = .ok (upd v) := by
  rcases (writable_iff code).mp h with rfl | rfl | rfl | rfl | rfl | rfl | rfl | rfl <;> exact ⟨_, rfl, rfl⟩

/-- A write leaves what the other codes name. -/
theorem cmbReg_cmbWrite_other {other : BitVec 4} (h : other ≠ code) :
    cmbReg (cmbWrite q code upd (g, b)).1 other = cmbReg g other := by
  unfold cmbWrite
  split
  case h_1 => rfl
  case h_10 => rfl
  all_goals
    unfold cmbReg
    split <;> simp at h ⊢

/-- Code 0 discards, and any other code that is not writable drops the write with a diagnostic. -/
theorem cmbWrite_notWritable (h : ¬ Writable code) :
    cmbWrite q code upd (g, b) = (g, if code = 0 then b else raise q .cmbBadDest b) := by
  simp only [writable_iff, not_or] at h
  obtain ⟨h4, h5, h8, h9, h10, h11, h12, h13⟩ := h
  unfold cmbWrite
  split
  case h_1 => rfl
  case h_10 h0 _ _ _ _ _ _ _ _ => exact Prod.ext rfl (if_neg h0).symm
  all_goals contradiction

theorem cmbReg_cmbWrite_notWritable (h : ¬ Writable code) (other : BitVec 4) :
    cmbReg (cmbWrite q code upd (g, b)).1 other = cmbReg g other := by
  rw [cmbWrite_notWritable q upd g b h]

theorem cmbWrite_bus :
    (cmbWrite q code upd (g, b)).2 = if Writable code ∨ code = 0 then b else raise q .cmbBadDest b := by
  by_cases h : Writable code
  case pos =>
    rw [if_pos (.inl h)]
    rcases (writable_iff code).mp h with rfl | rfl | rfl | rfl | rfl | rfl | rfl | rfl <;> rfl
  case neg => simp only [cmbWrite_notWritable q upd g b h, h, false_or]

end writes

end Sys2Proof.Machine

section
open Sys2Proof Sys2Proof.Machine

/-- Settles O38: the two portions of a stage by their inputs, and a write by its code. -/
theorem generalCombinerStage : Obligations.GeneralCombinerStage := by
  refine ⟨fun g hg => ⟨fun code => cmbReg_reserved hg, rfl⟩, fun g byte v h => ⟨?rgb, cmbInputAlpha_of_reg h⟩,
    fun x => ⟨rfl, rfl, rfl, rfl, rfl, rfl, rfl, rfl⟩, ?stage, fun q code other upd g b => ?write⟩
  case rgb => rw [cmbInputRgb_of_reg h]; split <;> rfl
  case stage =>
    intro q st g bus A B C D a b c d g0 op opA mux om prod ab cd sm smA rgb alpha h5 h7 hA5 hA7 hrgb halpha
    simp only [List.cons.injEq, and_true] at hrgb halpha
    obtain ⟨hA, hB, hC, hD⟩ := hrgb
    obtain ⟨ha, hb, hc, hd⟩ := halpha
    rw [generalStage_of_portions (stageRgb_of_inputs h5 h7 hA hB hC hD) (stageAlpha_of_inputs hA5 hA7 ha hb hc hd), cmbWrites_eq,
      cmbWrites_eq]
    rfl
  case write =>
    intro writable r
    refine ⟨cmbReg_cmbWrite_same q upd g b, fun h => ?other, cmbWrite_bus q upd g b⟩
    rcases eq_or_ne other code with rfl | hne
    · exact cmbReg_cmbWrite_notWritable q upd g b (fun hw => h ⟨hw, rfl⟩) other
    · exact cmbReg_cmbWrite_other q upd g b hne

end
end

section
/-! PROOFS. The combiner from the start of a pixel to its packed colour: the stages in order, the final combiner, and the exact
pass-through of a primary colour in [0, 1] (R480, R485, R488 to R495). -/

namespace Sys2Proof.Machine
open Sys2Proof

/-! ### The arithmetic of values in [0, 1] (D2) -/

theorem divNearest_le (n d : Nat) : divNearest n d ≤ n / d + 1 := by
  rw [divNearest]
  split <;> omega

/-- A quotient that is at most one rounds to a finite value. -/
theorem ratPattern_finite_of_le_one {num : Nat} (hnum : num ≠ 0) (hle : num ≤ 2 ^ 149) (top : Nat) :
    ratPattern divNearest top num (2 ^ 149) < 0x7F800000 := by
  obtain ⟨k, hk⟩ : ∃ k, Nat.log2 num = k := ⟨_, rfl⟩
  have hlo : 2 ^ k ≤ num := hk ▸ Nat.log2_self_le hnum
  have hhi : num < 2 ^ (k + 1) := hk ▸ Nat.lt_log2_self
  have hk149 : k ≤ 149 := (Nat.pow_le_pow_iff_right (by decide)).mp (hlo.trans hle)
  obtain ⟨e, he⟩ : ∃ e : Int, max (ratExp num (2 ^ 149)) (-126) = e := ⟨_, rfl⟩
  rw [ratExp_pow hlo hhi] at he
  have hmantissa : divNearest (num * 2 ^ (-(e - 23)).toNat) (2 ^ 149) ≤ 2 ^ 24 + 1 := by
    have hscaled : num * 2 ^ (-(e - 23)).toNat ≤ 2 ^ 24 * 2 ^ 149 := calc
      _ ≤ 2 ^ (k + 1) * 2 ^ (-(e - 23)).toNat := Nat.mul_le_mul_right _ hhi.le
      _ = 2 ^ (k + 1 + (-(e - 23)).toNat) := (Nat.pow_add ..).symm
      _ ≤ 2 ^ (24 + 149) := Nat.pow_le_pow_right (by decide) (by omega)
      _ = 2 ^ 24 * 2 ^ 149 := Nat.pow_add ..
    exact (divNearest_le _ _).trans (Nat.succ_le_succ (Nat.div_le_of_le_mul (hscaled.trans_eq (Nat.mul_comm ..))))
  have hscale : ratScale num (2 ^ 149) (e - 23) = (num * 2 ^ (-(e - 23)).toNat, 2 ^ 149) := if_neg (by omega)
  simp only [ratPattern, if_neg hnum, ratExp_pow hlo hhi, he, hscale]
  rw [if_neg (by omega)]
  omega

theorem fMag_congr {x y : Word} (h : fAbsNat x = fAbsNat y) : fMag x = fMag y := by
  unfold fMag; rw [h]

theorem fAbsNat_fPack {mag : Nat} (h : mag < 2 ^ 31) (neg : Bool) : fAbsNat (fPack neg mag) = mag := by
  rw [fAbsNat, fPack, BitVec.toNat_ofNat]
  split <;> omega

theorem fSign_fPack_false {mag : Nat} (h : mag < 2 ^ 31) : fSign (fPack false mag) = false := by
  rw [fSign, fPack, BitVec.toNat_ofNat, decide_eq_false_iff_not, if_neg Bool.false_ne_true]
  omega

/-- A finite value without sign times zero is zero. -/
theorem fMul_zero {y : Word} (hfin : fIsFinite y = true) (hsign : fSign y = false) : fMul y 0 = 0 := by
  have hzero : fIsFinite (0 : Word) = true := by decide +kernel
  have hsign0 : fSign (0 : Word) = false := by decide +kernel
  have hmag0 : fMag (0 : Word) = 0 := by decide +kernel
  simp only [fMul, fIsFinite_not_nan hfin, fIsFinite_not_inf hfin, fIsFinite_not_nan hzero, fIsFinite_not_inf hzero, hsign, hsign0, hmag0,
    Nat.mul_zero]
  rfl

section unit
variable {x : Word} (h : x.toNat ≤ 0x3F800000)
include h

theorem fAbsNat_unit : fAbsNat x = x.toNat := Nat.mod_eq_of_lt (by omega)

theorem fSign_unit : fSign x = false := decide_eq_false (by omega)

theorem fIsFinite_unit : fIsFinite x = true := decide_eq_true (by rw [fAbsNat_unit h]; omega)

theorem fKey_unit : fKey x = x.toNat := by
  rw [fKey, fSign_unit h, fAbsNat_unit h]; rfl

theorem max0_unit : max0 x = x := by
  have hkey : fKey 0 = 0 := by decide +kernel
  have hnan : fIsNaN 0 = false := by decide +kernel
  rw [max0, fLt, hkey, hnan, fKey_unit h, fIsFinite_not_nan (fIsFinite_unit h)]
  by_cases hx : x = 0
  · subst hx; rfl
  · have hpos : 0 < x.toNat := by
      rw [Nat.pos_iff_ne_zero]; exact fun h0 => hx (BitVec.eq_of_toNat_eq h0)
    rw [if_pos (by simpa using hpos)]

theorem capOne_unit : capOne x = x := by
  have hkey : fKey fOne = 0x3F800000 := by decide +kernel
  refine if_neg ?_
  simp only [fLt, hkey, fKey_unit h, Bool.and_eq_true, decide_eq_true_eq]
  omega

/-- The magnitude is at most that of one. -/
theorem fMag_unit_le : fMag x ≤ 2 ^ 149 := by
  rw [fMag, fAbsNat_unit h]
  split
  case isTrue => omega
  case isFalse =>
    rcases Nat.lt_or_ge (x.toNat / 2 ^ 23) 127 with hexp | hexp
    · calc (2 ^ 23 + x.toNat % 2 ^ 23) * 2 ^ (x.toNat / 2 ^ 23 - 1)
        _ ≤ 2 ^ 24 * 2 ^ 125 := Nat.mul_le_mul (by omega) (Nat.pow_le_pow_right (by decide) (by omega))
        _ = 2 ^ 149 := by norm_num
    · have hone : x.toNat = 0x3F800000 := by omega
      rw [hone]
      decide

/-- The complement `1 - x` is finite and has no sign. -/
theorem fSub_one_unit : fIsFinite (fSub fOne x) = true ∧ fSign (fSub fOne x) = false := by
  have hone : fIsFinite fOne = true := by decide +kernel
  have hfixone : fFix fOne = 2 ^ 149 := by decide +kernel
  have hsignone : fSign fOne = false := by decide +kernel
  have hneg : fIsFinite (fNeg x) = true := by rw [fIsFinite, fAbsNat_fNeg]; exact fIsFinite_unit h
  have hfixneg : fFix (fNeg x) = -(fMag x : Int) := by
    rw [fFix, fSign_fNeg, fSign_unit h, fMag_congr (fAbsNat_fNeg x)]; rfl
  have hle := fMag_unit_le h
  simp only [fSub, fAdd, fIsFinite_not_nan hone, fIsFinite_not_inf hone, fIsFinite_not_nan hneg, fIsFinite_not_inf hneg, hfixone,
    hfixneg, hsignone, Bool.or_self, Bool.false_and, Bool.false_eq_true, if_false]
  split
  case isTrue => decide +kernel
  case isFalse hne =>
    obtain ⟨num, hnum⟩ : ∃ num : Nat, (2 ^ 149 + -(fMag x : Int)) = num := ⟨2 ^ 149 - fMag x, by omega⟩
    have hfin := ratPattern_finite_of_le_one (num := num) (by omega) (by omega) 0x7F800000
    rw [hnum, fRoundInt, fRound, Int.natAbs_natCast, decide_eq_false (by omega)]
    exact ⟨decide_eq_true (by rw [fAbsNat_fPack (by omega)]; exact hfin), fSign_fPack_false (by omega)⟩

/-- With B one and C and D zero the final combiner's component is A (R488). -/
theorem finalComponent_passThrough : finalComponent x fOne 0 0 = x := by
  obtain ⟨hfin, hsign⟩ := fSub_one_unit h
  have hadd : fAdd x 0 = x := fAdd_posZero (fIsFinite_unit h) (.inr (fSign_unit h))
  rw [finalComponent, fMul_one (fIsFinite_unit h), fMul_zero hfin hsign, hadd, hadd, capOne_unit h]

end unit

/-! ### The stages in order and the packed colour (R485, R490) -/

/-- A loop whose turns take each value of a sequence to the next ends at the last. -/
theorem loopM_of_sequence {α : Type} {f : Nat → α → Except Refusal α} {r : Nat → α} {n start : Nat}
    (h : ∀ k, k < n → f (start + k) (r (start + k)) = .ok (r (start + k + 1))) : loopM f n start (r start) = .ok (r (start + n)) := by
  induction n generalizing start with
  | zero => rfl
  | succ n ih =>
    have hfirst : f start (r start) = .ok (r (start + 1)) := h 0 (by omega)
    have hrest := ih (start := start + 1) fun k hk => by
      have := h (k + 1) (by omega)
      rwa [show start + (k + 1) = start + 1 + k by omega] at this
    simp only [loopM, hfirst, hrest]
    rw [show start + 1 + n = start + (n + 1) by omega]

theorem combine_of_stages {q : Who} {c : Combiner} {p v : Vec4} {t0 t1 t2 t3 : Word} {b : Bus} {r : Nat → CmbRegs × Bus}
    (hstart : r 0 = (cmbInit p t0 t1 t2 t3, b))
    (hstages : ∀ k, k < c.stages.toNat → generalStage q (stageAt c k) (r k) = .ok (r (k + 1)))
    (hfinal : finalStage c (r c.stages.toNat).1 = .ok v) :
    combine q c p t0 t1 t2 t3 b = .ok (packColorFloat v.x v.y v.z v.w, (r c.stages.toNat).2) := by
  have hloop := loopM_of_sequence (f := fun k r => generalStage q (stageAt c k) r) (r := r) (n := c.stages.toNat) (start := 0)
    fun k hk => by simpa only [Nat.zero_add] using hstages k hk
  rw [Nat.zero_add] at hloop
  rw [combine, ← hstart, hloop]
  simp only [bind, Except.bind, hfinal]
  rfl

theorem byteOf_pack8 (a r g b : BitVec 8) :
    byteOf (pack8 a r g b) 3 = a ∧ byteOf (pack8 a r g b) 2 = r ∧ byteOf (pack8 a r g b) 1 = g ∧ byteOf (pack8 a r g b) 0 = b := by
  have ha := a.isLt; have hr := r.isLt; have hg := g.isLt; have hb := b.isLt
  refine ⟨?_, ?_, ?_, ?_⟩ <;> apply BitVec.eq_of_toNat_eq <;> rw [byteOf_toNat, pack8_toNat] <;> omega

/-! ### The final combiner (R488, R489, R495) -/

/-- The registers that A to D and G see: those of E and F, with the product of E and F. -/
def finalRegsEf (c : Combiner) (g : CmbRegs) (E F : Rgb) : CmbRegs :=
  { finalRegs c g with ef := ⟨fMul E.r F.r, fMul E.g F.g, fMul E.b F.b, 0⟩, final := true }

theorem finalStage_of_inputs {c : Combiner} {g : CmbRegs} {A B C D E F : Rgb} {G : Word}
    (hE : cmbInputRgb (finalRegs c g) (byteOf c.fcw1 3) = .ok E) (hF : cmbInputRgb (finalRegs c g) (byteOf c.fcw1 2) = .ok F)
    (hA : cmbInputRgb (finalRegsEf c g E F) (byteOf c.fcw0 3) = .ok A) (hB : cmbInputRgb (finalRegsEf c g E F) (byteOf c.fcw0 2) = .ok B)
    (hC : cmbInputRgb (finalRegsEf c g E F) (byteOf c.fcw0 1) = .ok C) (hD : cmbInputRgb (finalRegsEf c g E F) (byteOf c.fcw0 0) = .ok D)
    (hG : cmbInputAlpha (finalRegsEf c g E F) (byteOf c.fcw1 1) = .ok G) :
    finalStage c g = .ok ⟨finalComponent A.r B.r C.r D.r, finalComponent A.g B.g C.g D.g, finalComponent A.b B.b C.b D.b, G⟩ := by
  unfold finalRegsEf at hA hB hC hD hG
  simp only [finalStage, icwByte, hE, hF, Rgb.zip, bind, Except.bind, hA, hB, hC, hD, hG]
  rfl

/-- The inputs of the pass-through word: A the primary colour, B one, C and D zero. -/
theorem finalStage_passThrough {c : Combiner} {g : CmbRegs} (hword : c.fcw0 = 0x04200000) (he : stageCode (byteOf c.fcw1 3) = true)
    (hf : stageCode (byteOf c.fcw1 2) = true) (hg : finalCode (byteOf c.fcw1 1) = true) (hx : g.primary.x.toNat ≤ 0x3F800000)
    (hy : g.primary.y.toNat ≤ 0x3F800000) (hz : g.primary.z.toNat ≤ 0x3F800000) :
    ∃ alpha, finalStage c g = .ok ⟨g.primary.x, g.primary.y, g.primary.z, alpha⟩ := by
  obtain ⟨E, hE⟩ := cmbInputRgb_completes (g := finalRegs c g) (.inl he)
  obtain ⟨F, hF⟩ := cmbInputRgb_completes (g := finalRegs c g) (.inl hf)
  obtain ⟨G, hG⟩ := cmbInputAlpha_completes (g := finalRegsEf c g E F) (.inr ⟨rfl, hg⟩)
  have hone : cmbMap 1 0 = fOne := by decide +kernel
  have hzero : cmbMap 0 0 = 0 := by decide +kernel
  have hA : cmbInputRgb (finalRegsEf c g E F) (byteOf c.fcw0 3) = .ok ⟨g.primary.x, g.primary.y, g.primary.z⟩ := by
    calc
      _ = .ok ⟨max0 g.primary.x, max0 g.primary.y, max0 g.primary.z⟩ := by rw [hword]; rfl
      _ = _ := by rw [max0_unit hx, max0_unit hy, max0_unit hz]
  have hB : cmbInputRgb (finalRegsEf c g E F) (byteOf c.fcw0 2) = .ok (rep3 fOne) := by
    rw [hword, ← hone]; rfl
  have hCD (k : Nat) (hk : k < 2) : cmbInputRgb (finalRegsEf c g E F) (byteOf c.fcw0 k) = .ok (rep3 0) := by
    rw [hword, ← hzero]
    interval_cases k <;> rfl
  refine ⟨G, ?_⟩
  rw [finalStage_of_inputs hE hF hA hB (hCD 1 (by decide)) (hCD 0 (by decide)) hG]
  simp only [rep3, finalComponent_passThrough hx, finalComponent_passThrough hy, finalComponent_passThrough hz]

end Sys2Proof.Machine

section
open Sys2Proof Sys2Proof.Machine

/-- Settles O39: the stages as a sequence of register states, the final combiner by its inputs, and the pass-through word as one case. -/
theorem combineAndFinalStage : Obligations.CombineAndFinalStage := by
  refine ⟨fun p t0 t1 t2 t3 => rfl, fun q c p v t0 t1 t2 t3 b r hstart hstages hfinal => ?stages, ?final,
    fun q c p t0 t1 t2 t3 b hstages hword he hf hg hx hy hz => ?passThrough⟩
  case stages => exact ⟨_, combine_of_stages hstart hstages hfinal, byteOf_pack8 ..⟩
  case final =>
    intro c g A B C D E F G pos sum out h k hEF hABCD hG
    simp only [List.cons.injEq, and_true] at hEF hABCD
    obtain ⟨hE, hF⟩ := hEF
    obtain ⟨hA, hB, hC, hD⟩ := hABCD
    exact ⟨rfl, rfl, finalStage_of_inputs hE hF hA hB hC hD hG⟩
  case passThrough =>
    obtain ⟨alpha, hfinal⟩ := finalStage_passThrough (g := cmbInit p t0 t1 t2 t3) hword he hf hg hx hy hz
    refine ⟨⟨_, hfinal, rfl, rfl, rfl⟩, ?_⟩
    have hnone : c.stages.toNat = 0 := by rw [hstages]; rfl
    obtain ⟨-, hbytes⟩ := byteOf_pack8 (to8 alpha) (to8 p.x) (to8 p.y) (to8 p.z)
    exact ⟨_, combine_of_stages (r := fun _ => (cmbInit p t0 t1 t2 t3, b)) rfl (fun k hk => by omega) hfinal, hbytes⟩

end
end

section
/-! PROOFS. The invariant of the block's state (R34, R80, R270, R473, R604, R605): what each state operation, each instruction, each move of
an agent and each step keeps of it. -/

namespace Sys2Proof.Machine
open Sys2Proof

/-! ### Banks within their size -/

theorem bankOk_set {α : Type} [DecidableEq α] {d v : α} {b : Bank α} {n i : Nat} (hi : i < n) (h : bankOk d n b = true) :
    bankOk d n (bankSet d b i v) = true := by
  simp only [bankOk, Bool.and_eq_true] at h ⊢
  exact ⟨bankWf_set i v h.1, bankBelow_set hi h.2⟩

/-- A property of every entry that the default has too is one of every index. -/
theorem bankGet_of_all {α : Type} {d : α} {p : α → Bool} {b : Bank α} (hd : p d = true) (hb : b.all (fun e => p e.2) = true) (i : Nat) :
    p (bankGet d b i) = true := by
  induction b with
  | nil => exact hd
  | cons e rest ih =>
    rw [List.all_cons, Bool.and_eq_true] at hb
    rw [bankGet]
    split
    · exact hb.1
    · exact ih hb.2

/-! ### The parts of the invariant -/

/-- The vertex arrays and the inline buffer lie within their sizes (R41, R51). -/
structure VertexArraysOk (va : VertexArrays) : Prop where
  slots : bankOk .init 16 va.slots = true
  ibuf : bankOk 0 64 va.ibuf = true

/-- The topology is one that a begin stores, and the ring with its keep slot lies within its size (R43, R270). -/
structure PrimOk (p : Prim) : Prop where
  topology : p.primType.toNat ≤ 10 ∨ p.primType = 15
  ring : bankOk .zero 1025 p.ring = true

/-- The matrices lie within their size (R44). -/
structure TransformOk (x : Transform) : Prop where
  proj : bankOk 0 16 x.proj = true
  modelview : bankOk 0 16 x.modelview = true
  invModelview : bankOk 0 16 x.invModelview = true
  composite : bankOk 0 16 x.composite = true

/-- The memories and registers of the vertex-program unit lie within their sizes (R45, R46). -/
structure VProgOk (u : VProg) : Prop where
  vpi : bankOk 0 1024 u.vpi = true
  vpc : bankOk .zero 192 u.vpc = true
  v : bankOk .zero 16 u.v = true
  r : bankOk .zero 16 u.r = true
  o : bankOk .zero 16 u.o = true

/-- The combiner has at most eight stages (R48, R473). -/
structure CombinerOk (c : Combiner) : Prop where
  stages : c.stages.toNat ≤ 8
  stage : bankOk .init 8 c.stage = true

/-- The part of the invariant that the rendering pipeline works on. -/
structure PipelineOk (s : State) : Prop where
  va : VertexArraysOk s.va
  pvtx : bankOk .zero 16 s.pvtx = true
  prim : PrimOk s.prim
  xf : TransformOk s.xf
  vp : VProgOk s.vp
  tex : bankOk .init 4 s.tex = true
  cmb : CombinerOk s.cmb

/-- The part of the invariant that the puller and the host work on: channels with their bursts, bindings, registers, the interrupt
registers and plain storage. -/
structure ControlOk (s : State) : Prop where
  chans : bankOk .init 32 s.chans = true
  bursts : s.chans.all (fun e => burstOk e.2.burst) = true
  subs : bankOk .none 256 s.subs = true
  regs : bankOk 0 524288 s.regs = true
  irq : irqInv s.par.irqBits s.irq = true
  mmio : bankOk 0 4294967296 s.mmio = true

/-- The whole invariant by its parts. -/
theorem inv_iff (s : State) : Inv s = true ↔ memoryInv s = true ∧ PipelineOk s ∧ ControlOk s := by
  simp only [Inv, burstInv, pipelineInv, bankInv, Bool.and_eq_true, Bool.or_eq_true, decide_eq_true_eq, and_assoc]
  constructor
  · rintro ⟨hmem, hirq, hbursts, htopology, hstages, hchans, hsubs, hregs, hslots, hibuf, hpvtx, hring, hproj, hmv, himv, hcomp, hvpi,
      hvpc, hv, hr, ho, htex, hstage, hmmio⟩
    exact ⟨hmem,
      ⟨⟨hslots, hibuf⟩, hpvtx, ⟨htopology, hring⟩, ⟨hproj, hmv, himv, hcomp⟩, ⟨hvpi, hvpc, hv, hr, ho⟩, htex, ⟨hstages, hstage⟩⟩,
      ⟨hchans, hbursts, hsubs, hregs, hirq, hmmio⟩⟩
  · rintro ⟨hmem, ⟨⟨hslots, hibuf⟩, hpvtx, ⟨htopology, hring⟩, ⟨hproj, hmv, himv, hcomp⟩, ⟨hvpi, hvpc, hv, hr, ho⟩, htex,
      ⟨hstages, hstage⟩⟩, ⟨hchans, hbursts, hsubs, hregs, hirq, hmmio⟩⟩
    exact ⟨hmem, hirq, hbursts, htopology, hstages, hchans, hsubs, hregs, hslots, hibuf, hpvtx, hring, hproj, hmv, himv, hcomp, hvpi,
      hvpc, hv, hr, ho, htex, hstage, hmmio⟩

/-! ### The vertex-program unit (R306, R309) -/

theorem maskSet_ok {b : Bank Vec4} {n i : Nat} (m : BitVec 4) (val : Vec4) (hi : i < n) (h : bankOk .zero n b = true) :
    bankOk .zero n (maskSet b i m val) = true := bankOk_set hi h

theorem writeTemps_ok (vop sop : BitVec 4) (f : VpFields) (v sc : Vec4) {r : Bank Vec4} (h : bankOk .zero 16 r = true) :
    bankOk .zero 16 (writeTemps vop sop f v sc r) = true := by
  have hdst : scaDest vop f < 16 := by
    unfold scaDest
    split
    · decide
    · exact f.rDst.isLt
  have hvector : bankOk .zero 16 (if vecToTemp vop f then maskSet r f.rDst.toNat f.vtMask v else r) = true := by
    split
    · exact maskSet_ok _ _ f.rDst.isLt h
    · exact h
  unfold writeTemps
  dsimp only
  split
  · exact maskSet_ok _ _ hdst hvector
  · exact hvector

section unit
variable {q : Who} {vop sop : BitVec 4} {f : VpFields} {u : VProg}

theorem writeOutput_ok (v sc : Vec4) (b : Bus) (h : VProgOk u) : VProgOk (writeOutput q vop sop f v sc u b).1 := by
  unfold writeOutput
  dsimp only
  generalize (if f.oMux = 0 then v else sc) = val
  split_ifs with _ _ ho hc
  · exact { h with o := maskSet_ok _ _ ho h.o }
  · exact h
  · exact { h with vpc := maskSet_ok _ _ hc h.vpc }
  · exact h
  · exact h

theorem writeBack_ok (v sc a : Vec4) (b : Bus) (h : VProgOk u) : VProgOk (writeBack q vop sop f v sc a u b).1 := by
  have hout : VProgOk (writeOutput q vop sop f v sc { u with r := writeTemps vop sop f v sc u.r } b).1 :=
    writeOutput_ok v sc b { h with r := writeTemps_ok vop sop f v sc h.r }
  exact { hout with }

theorem vpExecute_ok {m : Numerics} {b : Bus} {r : VProg × Bus} (hr : vpExecute m q vop sop f u b = .ok r) (h : VProgOk u) :
    VProgOk r.1 := by
  unfold vpExecute at hr
  split at hr
  case isFalse => cases hr
  case isTrue =>
    obtain ⟨_, _, hr⟩ := except_bind_ok hr
    obtain ⟨_, _, hr⟩ := except_bind_ok hr
    obtain ⟨_, _, hr⟩ := except_bind_ok hr
    cases hr
    exact writeBack_ok _ _ _ b h

theorem vpLoop_ok {par : Params} {n : Nat} {b : Bus} {r : VProg × Bus} (hr : vpLoop par q n u b = .ok r) (h : VProgOk u) :
    VProgOk r.1 := by
  induction n generalizing u b with
  | zero => cases hr; exact h
  | succ n ih =>
    rw [vpLoop] at hr
    split at hr
    · cases hr; exact h
    · obtain ⟨w, hw, hr⟩ := except_bind_ok hr
      have hw := vpExecute_ok hw h
      split at hr
      · cases hr; exact hw
      · exact ih hr { hw with }

theorem vpRun_ok {par : Params} {vtx : Bank Vec4} {b : Bus} {r : VProg × Bus} (hr : vpRun par q vtx u b = .ok r)
    (hvtx : bankOk .zero 16 vtx = true) (h : VProgOk u) : VProgOk r.1 :=
  vpLoop_ok hr { h with v := hvtx, r := rfl, o := rfl }

end unit

/-! ### Emission (R255) -/

theorem storeVertex_ok {p : Prim} (t : TVertex) (h : PrimOk p) : PrimOk (storeVertex p t) := by
  have hstored : bankOk .zero 1025 (bankSet .zero p.ring p.rhead.toNat t) = true :=
    bankOk_set (by have := p.rhead.isLt; omega) h.ring
  refine ⟨h.topology, ?_⟩
  unfold storeVertex
  dsimp only
  split
  · exact bankOk_set (by decide) hstored
  · exact hstored

theorem emit_ok {vtx : Bank Vec4} {s t : State} (ht : emit vtx s = .ok t) (hvtx : bankOk .zero 16 vtx = true) (h : PipelineOk s) :
    PipelineOk t := by
  obtain ⟨hframe, -, hclosed, hopen, -⟩ := emit_emitsOne vtx s ht
  have hparts : VProgOk t.vp ∧ PrimOk t.prim := by
    by_cases hp : s.prim.primType = 0
    · obtain ⟨hvp, hprim, -⟩ := hclosed hp
      rw [hvp, hprim]
      exact ⟨h.vp, h.prim⟩
    · obtain ⟨v, b, ⟨hprogram, hfixed⟩, hprim, -⟩ := hopen hp
      rw [hprim]
      refine ⟨?_, storeVertex_ok v h.prim⟩
      cases hm : s.vp.mode with
      | true => exact vpRun_ok (hprogram hm).1 hvtx h.vp
      | false => rw [(hfixed hm).1]; exact h.vp
  rw [hframe]
  exact { h with vp := hparts.1, prim := hparts.2 }

theorem fetchSlots_ok {q : Who} {rd : Reader} {va : VertexArrays} {addr : Nat → Word} {pvtx : Bank Vec4} {b : Bus}
    (h : bankOk .zero 16 pvtx = true) : bankOk .zero 16 (fetchSlots q rd va addr pvtx b).1 = true := by
  simp only [bankOk, Bool.and_eq_true] at h ⊢
  exact fetchSlots_bank h.1 h.2

theorem emitIndexed_ok {n : Word} {s t : State} (ht : emitIndexed n s = .ok t) (h : PipelineOk s) : PipelineOk t :=
  emit_ok ht (fetchSlots_ok h.pvtx) { h with }

theorem emitRange_ok {start : Word} {count : Nat} {s t : State} (ht : emitRange start count s = .ok t) (h : PipelineOk s) :
    PipelineOk t := by
  induction count generalizing start s with
  | zero => cases ht; exact h
  | succ count ih =>
    obtain ⟨u, hu, ht⟩ := except_bind_ok ht
    exact ih ht (emitIndexed_ok hu h)

theorem emitInline_ok {s t : State} (ht : emitInline s = .ok t) (h : PipelineOk s) : PipelineOk t := by
  obtain ⟨u, hu, rfl⟩ := except_map_ok ht
  have hu : PipelineOk u := emit_ok hu (fetchSlots_ok h.pvtx) { h with }
  exact { hu with va := { hu.va with } }

/-! ### The pipeline's part of the invariant, instruction by instruction -/

/-- Every next state of the run has the property. -/
def Leads (P : State → Prop) (r : Run) : Prop := ∀ t, r = .next t → P t

section leads
variable {P : State → Prop}

theorem leads_next {t : State} (h : P t) : Leads P (.next t) := by
  rintro _ ⟨⟩; exact h

theorem leads_ofExcept {r : Except Refusal State} (h : ∀ t, r = .ok t → P t) : Leads P (Run.ofExcept r) :=
  fun t ht => h t (ofExcept_next ht)

theorem leads_ite {c : Prop} [Decidable c] {r q : Run} (hr : c → Leads P r) (hq : ¬ c → Leads P q) : Leads P (if c then r else q) := by
  split
  case isTrue h => exact hr h
  case isFalse h => exact hq h

end leads

section exec
variable {s : State} (h : PipelineOk s)
include h

theorem setAttrVec_ok {n : Nat} (hn : n < 16) (v : Vec4) : PipelineOk (s.setAttrVec n v) :=
  { h with pvtx := bankOk_set hn h.pvtx }

theorem setAttr_ok {n : Nat} (hn : n < 16) (c : BitVec 2) (d : Word) : PipelineOk (s.setAttr n c d) := setAttrVec_ok h hn _

theorem emitWhen_ok (c : Bool) : Leads PipelineOk (emitWhen c s) :=
  leads_ite (fun _ => leads_ofExcept fun _ ht => emit_ok ht h.pvtx h) fun _ => leads_next h

theorem raiseWhen_ok (c : Prop) [Decidable c] (k : DiagKind) : PipelineOk (if c then s.raise k else s) := by
  split
  · exact { h with }
  · exact h

theorem updTex_ok {n : Nat} (hn : n < 4) (f : TexUnit → TexUnit) : PipelineOk (s.updTex n f) := { h with tex := bankOk_set hn h.tex }

theorem updStage_ok (st : BitVec 3) (f : CmbStage → CmbStage) : PipelineOk (s.updStage st f) :=
  { h with cmb := { h.cmb with stage := bankOk_set st.isLt h.cmb.stage } }

theorem setVaOffset_ok {n : Nat} (hn : n < 16) (d : Word) : PipelineOk { s with va := setVaOffset n d s.va } :=
  { h with va := { h.va with slots := bankOk_set hn h.va.slots } }

theorem setVaFormat_ok {n : Nat} (hn : n < 16) (d : Word) : PipelineOk { s with va := setVaFormat n d s.va } :=
  { h with va := { h.va with slots := bankOk_set hn h.va.slots } }

theorem setConst_ok {i : Nat} (hi : i < 192) (k : BitVec 2) (d : Word) : VProgOk (setConst s.vp i k d) :=
  { h.vp with vpc := bankOk_set hi h.vp.vpc }

theorem inlinePush_ok (d : Word) : VertexArraysOk (inlinePush s.va d) := by
  refine { h.va with ibuf := ?_ }
  unfold inlinePush
  dsimp only
  split
  case isTrue hroom => exact bankOk_set hroom h.va.ibuf
  case isFalse => exact h.va.ibuf

theorem runInstr_ok {vop sop : BitVec 4} {f : VpFields} {t : State} (ht : runInstr vop sop f s = .next t) : PipelineOk t := by
  obtain ⟨r, hr, rfl⟩ := except_map_ok (ofExcept_next ht)
  exact { h with vp := vpExecute_ok hr h.vp }

theorem execInlineArray_ok (d : Word) : Leads PipelineOk (execInlineArray d s) := by
  have hpush : PipelineOk { s with va := inlinePush s.va d } := { h with va := inlinePush_ok h d }
  unfold execInlineArray
  exact leads_ite (fun _ => leads_next { h with }) fun _ =>
    leads_ite (fun _ => leads_ofExcept fun _ ht => emitInline_ok ht hpush) fun _ => leads_next hpush

end exec

/-- The number of stages is at most eight (R473). -/
theorem stageCount_le (d : Word) : (stageCount d).toNat ≤ 8 := by
  rw [stageCount_eq, BitVec.toNat_ofNat]
  omega

/-- The topology that a begin stores (R270). -/
theorem beginType_ok (d : Word) : (beginType d).toNat ≤ 10 ∨ beginType d = 15 := by
  rw [beginType_eq]
  split
  · rw [BitVec.toNat_ofNat]; omega
  · exact .inr rfl

/-- Every instruction outside the puller keeps the pipeline's part. -/
theorem exec_pipelineOk {i : Instr} {s : State} (hi : isPullerInstr i = false) (h : PipelineOk s) : Leads PipelineOk (exec i s) := by
  cases i with
  | jump | call | increasing | nonincreasing | longNonincreasing | ret | oldJump | sliConditional | invalid | bindObject | noOperation
  | waitForVblank => cases hi
  | projectionMatrix k => exact leads_next { h with xf := { h.xf with proj := bankOk_set k.isLt h.xf.proj } }
  | modelViewMatrix k => exact leads_next { h with xf := { h.xf with modelview := bankOk_set k.isLt h.xf.modelview } }
  | inverseModelViewMatrix k => exact leads_next { h with xf := { h.xf with invModelview := bankOk_set k.isLt h.xf.invModelview } }
  | compositeMatrix k => exact leads_next { h with xf := { h.xf with composite := bankOk_set k.isLt h.xf.composite } }
  | viewportOffset k d => exact leads_next { h with xf := { h.xf with }, vp := setConst_ok h (by decide) k d }
  | viewportScale k d => exact leads_next { h with xf := { h.xf with }, vp := setConst_ok h (by decide) k d }
  | transformProgram j d =>
    have hword : 4 * s.vp.load.toNat + s.vp.word.toNat < 1024 := by omega
    exact leads_next { h with vp := { h.vp with vpi := bankOk_set hword h.vp.vpi } }
  | transformConstant j d =>
    refine leads_ite (fun hc => leads_next ?_) fun _ => leads_next { h with vp := { h.vp with } }
    exact { h with vp := { setConst_ok h hc s.vp.cWord d with } }
  | transformExecutionMode | transformProgramLoad | transformProgramStart | transformConstantLoad =>
    exact leads_next { h with vp := { h.vp with } }
  | combinerAlphaIcw st | combinerColorIcw st | combinerAlphaOcw st | combinerColorOcw st | combinerFactor0 st | combinerFactor1 st =>
    exact leads_next (updStage_ok h st _)
  | combinerSpecularFogCw0 | combinerSpecularFogCw1 => exact leads_next { h with cmb := { h.cmb with } }
  | specularFogFactor =>
    exact leads_ite (fun _ => leads_next { h with cmb := { h.cmb with } }) fun _ => leads_next { h with cmb := { h.cmb with } }
  | combinerControl d =>
    have ht : PipelineOk { s with cmb := { s.cmb with stages := stageCount d } } :=
      { h with cmb := { h.cmb with stages := stageCount_le d } }
    exact leads_next (raiseWhen_ok ht _ _)
  | beginEnd d =>
    have ht : PipelineOk { s with prim := { s.prim with primType := beginType d, vcount := 0, rsel := selectShader s } } :=
      { h with prim := { h.prim with topology := beginType_ok d } }
    refine leads_ite (fun _ => leads_next ?_) fun _ => leads_next (raiseWhen_ok ht _ _)
    exact { h with prim := { h.prim with topology := .inl (Nat.zero_le _) } }
  | textureOffset0 | textureFormat0 | textureAddress0 | textureControl0N0 | textureControl1N0 | textureImageRect0
  | textureOffset1 | textureFormat1 | textureAddress1 | textureControl0N1 | textureControl1N1 | textureImageRect1
  | textureOffset2 | textureFormat2 | textureAddress2 | textureControl0N2 | textureControl1N2 | textureImageRect2
  | textureOffset3 | textureFormat3 | textureAddress3 | textureControl0N3 | textureControl1N3 | textureImageRect3 =>
    exact leads_next (updTex_ok h (by decide) _)
  | vertexDataArrayOffset0 | vertexDataArrayOffset1 | vertexDataArrayOffset2 | vertexDataArrayOffset3 | vertexDataArrayOffset4
  | vertexDataArrayOffset5 | vertexDataArrayOffset6 | vertexDataArrayOffset7 | vertexDataArrayOffset8 | vertexDataArrayOffset9
  | vertexDataArrayOffset10 | vertexDataArrayOffset11 | vertexDataArrayOffset12 | vertexDataArrayOffset13 | vertexDataArrayOffset14
  | vertexDataArrayOffset15 => exact leads_next (setVaOffset_ok h (by decide) _)
  | vertexDataArrayFormat0 | vertexDataArrayFormat1 | vertexDataArrayFormat2 | vertexDataArrayFormat3 | vertexDataArrayFormat4
  | vertexDataArrayFormat5 | vertexDataArrayFormat6 | vertexDataArrayFormat7 | vertexDataArrayFormat8 | vertexDataArrayFormat9
  | vertexDataArrayFormat10 | vertexDataArrayFormat11 | vertexDataArrayFormat12 | vertexDataArrayFormat13 | vertexDataArrayFormat14
  | vertexDataArrayFormat15 => exact leads_next (setVaFormat_ok h (by decide) _)
  | vertex3f0 | vertex3f1 | vertex4f0 | vertex4f1 | vertex4f2 => exact leads_next (setAttr_ok h (by decide) _ _)
  | vertex3f2 => exact emitWhen_ok (setAttr_ok (setAttr_ok h (by decide) _ _) (by decide) _ _) true
  | vertex4f3 => exact emitWhen_ok (setAttr_ok h (by decide) _ _) true
  | vertexData2fM n =>
    refine leads_ite (fun _ => leads_next (setAttr_ok h n.isLt _ _)) fun _ => emitWhen_ok ?_ _
    exact setAttr_ok (setAttr_ok (setAttr_ok h n.isLt _ _) n.isLt _ _) n.isLt _ _
  | vertexData4fM n => exact emitWhen_ok (setAttr_ok h n.isLt _ _) _
  | vertexData4sM n => exact leads_ite (fun _ => leads_next (setAttrVec_ok h n.isLt _)) fun _ => emitWhen_ok (setAttrVec_ok h n.isLt _) _
  | vertexData2s n | vertexData4ub n => exact emitWhen_ok (setAttrVec_ok h n.isLt _) _
  | arrayElement16 =>
    refine leads_ofExcept fun t ht => ?_
    obtain ⟨u, hu, ht⟩ := except_bind_ok ht
    exact emitIndexed_ok ht (emitIndexed_ok hu h)
  | arrayElement32 => exact leads_ofExcept fun _ ht => emitIndexed_ok ht h
  | drawArrays => exact leads_ofExcept fun _ ht => emitRange_ok ht h
  | inlineArray => exact execInlineArray_ok h _
  | vpNop | vpMov | vpMul | vpAdd | vpMad | vpDp3 | vpDph | vpDp4 | vpDst | vpMin | vpMax | vpSlt | vpSge | vpArl
  | vpSNop | vpSImv | vpSRcp | vpSRcc | vpSRsq | vpSExp | vpSLog | vpSLit =>
    exact fun t ht => runInstr_ok h ht
  | _ => exact leads_next { h with }

/-! ### The interrupt line and the record of its changes (R604, R605) -/

/-- A level appended to the record differs from the one before it. -/
theorem alternates_append (prev x : Bool) (l : List Bool) :
    alternates prev (l ++ [x]) = (alternates prev l && (x != l.getLast?.getD prev)) := by
  induction l generalizing prev with
  | nil => simp [alternates]
  | cons y rest ih =>
    rw [List.cons_append, alternates, ih, alternates, ← Bool.and_assoc]
    cases rest <;> rfl

theorem irqInv_iff (k : IrqBits) (r : Irq) :
    irqInv k r = true ↔ updateIrq k r = r ∧ alternates false r.callbacks = true ∧ r.callbacks.getLast?.getD false = r.line := by
  simp only [irqInv, Bool.and_eq_true, decide_eq_true_eq, and_assoc]

/-- Recomputing the line keeps the record one of changes, whatever the registers other than the line and the record. -/
theorem irqInv_updateIrq {k : IrqBits} {r r' : Irq} (h : irqInv k r = true) (hline : r'.line = r.line)
    (hcallbacks : r'.callbacks = r.callbacks) : irqInv k (updateIrq k r') = true := by
  obtain ⟨-, halt, hlast⟩ := (irqInv_iff k r).mp h
  have hrecord : (updateIrq k r').callbacks =
      if (updateIrq k r').line = r.line then r.callbacks else r.callbacks ++ [(updateIrq k r').line] := by
    rw [← hline, ← hcallbacks]; rfl
  refine (irqInv_iff k _).mpr ⟨updateIrq_idem k r', ?_, ?_⟩ <;> rw [hrecord] <;> split
  case isTrue => exact halt
  case isFalse hne => rw [alternates_append, halt, hlast]; simpa using hne
  case isTrue heq => rw [hlast, heq]
  case isFalse => simp

/-! ### Channels, bindings and registers -/

theorem burstOk_nextBurst {b : Burst} (hl : b.lpend = false) (hb : b.bind = false) : burstOk (nextBurst b) = true := by
  simp [burstOk, nextBurst, hl, hb]

theorem burstOk_openBurst (incr : Bool) (mthd : BitVec 11) (subc : BitVec 3) (count : BitVec 11) :
    burstOk (openBurst incr mthd subc count) = true := by
  by_cases hc : count = 1
  · subst hc; cases incr <;> by_cases hm : mthd = 0 <;> simp [burstOk, openBurst, hm]
  · have hbind : (openBurst incr mthd subc count).bind = false := by
      rw [openBurst, decide_eq_false hc, Bool.and_false]
    rw [burstOk, hbind]
    rfl

/-- The bind-object data word and the count word end what they complete of the burst (R166, R171). -/
theorem burstOk_bound {b : Burst} (h : burstOk b = true) : burstOk { b with count := 0, bind := false } = true := by
  simp only [burstOk, Bool.and_eq_true, Bool.or_eq_true, Bool.not_eq_true'] at h
  obtain ⟨hl | ⟨⟨-, hincr⟩, -⟩, -⟩ := h
  · simp [burstOk, hl]
  · simp [burstOk, hincr]

theorem burstOk_counted {b : Burst} (h : burstOk b = true) (hl : b.lpend = true) (n : BitVec 24) :
    burstOk { b with count := n, lpend := false } = true := by
  simp only [burstOk, hl, Bool.not_true, Bool.false_or, Bool.and_eq_true, Bool.not_eq_true'] at h
  simp [burstOk, h.1.2]

/-- The channels lie within their bank, and each burst is one that the puller leaves. -/
def ChansOk (cs : Bank Channel) : Prop := bankOk .init 32 cs = true ∧ cs.all (fun e => burstOk e.2.burst) = true

theorem resumeOne_chans (r : Wait) {cs : Bank Channel} {n : Nat} (hn : n < 32) (h : ChansOk cs) : ChansOk (resumeOne r cs n) := by
  have hburst : burstOk (bankGet .init cs n).burst = true :=
    bankGet_of_all (d := Channel.init) (p := fun c => burstOk c.burst) rfl h.2 n
  unfold resumeOne
  dsimp only
  split
  · exact ⟨bankOk_set hn h.1, bankSet_all hburst h.2⟩
  · exact h

theorem resumeAll_chans (r : Wait) {cs : Bank Channel} (h : ChansOk cs) : ChansOk (resumeAll r cs) := by
  unfold resumeAll
  generalize hl : List.range 32 = l
  have hlt : ∀ n ∈ l, n < 32 := by rw [← hl]; exact fun n => List.mem_range.mp
  exact List.foldlRecOn l (resumeOne r) (motive := ChansOk) h fun _ hc n hn => resumeOne_chans r (hlt n hn) hc

section control
variable {s : State} (h : ControlOk s)
include h

theorem burstOk_chanAt (ch : BitVec 5) : burstOk (chanAt s ch).burst = true :=
  bankGet_of_all (d := Channel.init) (p := fun c => burstOk c.burst) rfl h.bursts ch.toNat

theorem setChan_ok (ch : BitVec 5) {c : Channel} (hc : burstOk c.burst = true) : ControlOk (s.setChan ch c) :=
  { h with chans := bankOk_set ch.isLt h.chans, bursts := bankSet_all hc h.bursts }

theorem setGet_ok (g : Word) : ControlOk (s.setGet g) := setChan_ok h s.cur (burstOk_chanAt h s.cur)

theorem setBurst_ok {b : Burst} (hb : burstOk b = true) : ControlOk (s.setBurst b) := setChan_ok h s.cur hb

theorem suspend_ok (r : Wait) : ControlOk (s.suspend r) := setChan_ok h s.cur (burstOk_chanAt h s.cur)

theorem setReg_ok (ch : BitVec 5) (subc : BitVec 3) (m : BitVec 11) (d : Word) : ControlOk (s.setReg ch subc m d) := by
  have hindex : regIndex ch subc m < 524288 := by unfold regIndex; omega
  exact { h with regs := bankOk_set hindex h.regs }

theorem bindHandle_ok (subc : BitVec 3) (handle : Word) : ControlOk (s.bindHandle subc handle) := by
  have hindex : subIndex s.cur subc < 256 := by unfold subIndex; omega
  unfold State.bindHandle
  split
  · exact { h with subs := bankOk_set hindex h.subs }
  · exact { h with }

/-- A change of the interrupt registers that leaves the line and the record, then `update_irq` (R604). -/
theorem withIrq_ok {f : Irq → Irq} (hline : (f s.irq).line = s.irq.line) (hcallbacks : (f s.irq).callbacks = s.irq.callbacks) :
    ControlOk (s.withIrq f) := { h with irq := irqInv_updateIrq h.irq hline hcallbacks }

theorem resumeAll_ok (r : Wait) : ControlOk { s with chans := resumeAll r s.chans } := by
  obtain ⟨hchans, hbursts⟩ := resumeAll_chans r ⟨h.chans, h.bursts⟩
  generalize resumeAll r s.chans = cs at hchans hbursts ⊢
  exact { h with chans := hchans, bursts := hbursts }

end control

/-! ### Instructions, the puller and the step -/

/-- Both parts of the invariant beside memory. -/
structure FormOk (s : State) : Prop where
  pipeline : PipelineOk s
  control : ControlOk s

/-- Every instruction keeps the form of the state. -/
theorem exec_formOk (i : Instr) {s : State} (h : FormOk s) : Leads FormOk (exec i s) := by
  obtain ⟨hp, hc⟩ := h
  cases hi : isPullerInstr i with
  | false =>
    refine fun t ht => ⟨exec_pipelineOk hi hp t ht, ?_⟩
    rw [exec_pipelineOnly i s hi t ht]
    exact { hc with }
  | true =>
    cases i with
    | jump | call | oldJump => exact leads_next ⟨{ hp with }, setGet_ok hc _⟩
    | increasing | nonincreasing => exact leads_next ⟨{ hp with }, setBurst_ok hc (burstOk_openBurst ..)⟩
    | longNonincreasing => exact leads_next ⟨{ hp with }, setBurst_ok hc rfl⟩
    | ret | sliConditional | invalid => exact leads_next ⟨{ hp with }, { hc with }⟩
    | bindObject handle =>
      have hbound : PipelineOk (s.bindHandle (curChan s).burst.subc handle) := by rw [bindHandle_frame]; exact { hp with }
      have hstored := setReg_ok (bindHandle_ok hc (curChan s).burst.subc handle) s.cur (curChan s).burst.subc 0 handle
      exact leads_next ⟨{ hbound with }, setBurst_ok hstored (burstOk_bound (burstOk_chanAt hc s.cur))⟩
    | noOperation =>
      refine leads_ite (fun _ => leads_next ⟨hp, hc⟩) fun _ => leads_next ⟨{ hp with }, ?_⟩
      exact suspend_ok (withIrq_ok hc rfl rfl) _
    | waitForVblank => exact leads_next ⟨{ hp with }, suspend_ok hc _⟩
    | _ => cases hi

section puller
variable {s : State} (h : FormOk s)
include h

theorem storeWord_formOk (d : Word) : FormOk (storeWord d s) := ⟨{ h.pipeline with }, setReg_ok h.control ..⟩

theorem methodWrite_formOk (d : Word) : Leads FormOk (methodWrite d s) := by
  have hstored := storeWord_formOk h d
  rcases methodWrite_cases d s with hw | ⟨i, m, -, hw⟩ <;> rw [hw]
  · exact leads_next hstored
  · exact exec_formOk i hstored

/-- A data word of a burst in progress leaves it one data word shorter. -/
theorem dataWord_formOk (d : Word) (hl : (curChan s).burst.lpend = false) (hb : (curChan s).burst.bind = false) :
    Leads FormOk (dataWord d s) := by
  intro t ht
  obtain ⟨u, hu, ht⟩ := andThen_next ht
  cases ht
  have hform := methodWrite_formOk h d u hu
  have hburst : (curChan u).burst = (curChan s).burst := by rw [(methodWrite_pullerKept hu).chan]; rfl
  refine ⟨{ hform.pipeline with }, setBurst_ok hform.control (burstOk_nextBurst ?_ ?_)⟩ <;> rw [hburst] <;> assumption

theorem processWord_formOk (w : Word) : Leads FormOk (processWord w s) := by
  refine leads_ite (fun hl => ?count) fun hl => leads_ite (fun _ => ?command) fun _ => leads_ite (fun _ => ?bind) fun hb => ?data
  case count =>
    exact leads_next ⟨{ h.pipeline with }, setBurst_ok h.control (burstOk_counted (burstOk_chanAt h.control s.cur) hl _)⟩
  case command => exact exec_formOk _ h
  case bind => exact exec_formOk _ h
  case data => exact dataWord_formOk h w (Bool.eq_false_of_not_eq_true hl) (Bool.eq_false_of_not_eq_true hb)

theorem fetchWord_formOk : FormOk (fetchWord s).2 := by
  refine ⟨{ h.pipeline with }, ?_⟩
  have hbus (b : Bus) : ControlOk { s with bus := b } := { h.control with }
  exact setGet_ok (hbus _) _

theorem pullerStep_formOk (ch : BitVec 5) : Leads FormOk (pullerStep ch s) := by
  have hcur : FormOk { s with cur := ch } := ⟨{ h.pipeline with }, { h.control with }⟩
  exact leads_ite (fun _ => processWord_formOk (fetchWord_formOk hcur) _) fun _ => leads_next h

/-! ### The host's moves -/

theorem mmioStore_control (off v : Word) : ControlOk (mmioStore off v s) := by
  have hc := h.control
  have hchan (ch : BitVec 5) := burstOk_chanAt hc ch
  have hplain (r : Irq) (hr : irqInv s.par.irqBits r = true) : ControlOk { s with irq := r } := { hc with irq := hr }
  obtain ⟨hidem, halt, hlast⟩ := (irqInv_iff _ _).mp hc.irq
  unfold mmioStore
  split
  case h_1 => exact hc
  case h_3 =>
    have hcleared : ControlOk (s.withIrq fun r => { r with pgraphIntr := r.pgraphIntr &&& ~~~v }) := withIrq_ok hc rfl rfl
    unfold resumeIdle
    split
    · exact resumeAll_ok hcleared _
    · exact hcleared
  case h_4 => exact hplain _ ((irqInv_iff _ _).mpr ⟨congrArg (fun r : Irq => { r with notifySrc := v }) hidem, halt, hlast⟩)
  case h_5 => exact hplain _ ((irqInv_iff _ _).mpr ⟨congrArg (fun r : Irq => { r with notifyData := v }) hidem, halt, hlast⟩)
  case h_9 => exact hplain _ ((irqInv_iff _ _).mpr ⟨congrArg (fun r : Irq => { r with displayed := v }) hidem, halt, hlast⟩)
  case h_10 ch _ => exact setChan_ok hc ch (hchan ch)
  case h_11 ch _ => exact setChan_ok hc ch (hchan ch)
  case h_12 => exact { hc with mmio := bankOk_set off.isLt hc.mmio }
  all_goals exact withIrq_ok hc rfl rfl

theorem mmioStore_formOk (off v : Word) : FormOk (mmioStore off v s) := by
  refine ⟨?_, mmioStore_control h off v⟩
  rw [mmioStore_registersOnly off v s]
  exact { h.pipeline with }

theorem vblankEvent_formOk : FormOk (vblankEvent s) := by
  have hirq : ControlOk (s.withIrq fun r => { r with pcrtcIntr := r.pcrtcIntr ||| 1 }) := withIrq_ok h.control rfl rfl
  obtain ⟨hchans, hbursts⟩ := resumeAll_chans .vblank ⟨h.control.chans, h.control.bursts⟩
  unfold vblankEvent
  generalize resumeAll .vblank s.chans = cs at hchans hbursts ⊢
  exact ⟨{ h.pipeline with }, { hirq with chans := hchans, bursts := hbursts }⟩

theorem agentStep_formOk (a : Agent) : Leads FormOk (agentStep a s) := by
  cases a with
  | puller ch => exact pullerStep_formOk h ch
  | vblank => exact leads_next (vblankEvent_formOk h)
  | mmioWrite addr bytes v => exact leads_ite (fun _ => leads_next (mmioStore_formOk h _ v)) fun _ _ ht => nomatch ht
  | mmioRead addr bytes => exact leads_ite (fun _ => leads_next ⟨{ h.pipeline with }, { h.control with }⟩) fun _ _ ht => nomatch ht
  | memWrite | placeObject => exact leads_next ⟨{ h.pipeline with }, { h.control with }⟩

theorem step_formOk : Leads FormOk (step s) := by
  intro t ht
  rcases step_cases ht with ⟨a, rest, -, ht⟩ | ⟨-, ⟨ch, ht⟩ | rfl⟩
  · exact agentStep_formOk (s := { s with agenda := rest }) ⟨{ h.pipeline with }, { h.control with }⟩ a t ht
  · exact pullerStep_formOk h ch t ht
  · exact h

end puller

end Sys2Proof.Machine

section
open Sys2Proof Sys2Proof.Machine

/-- Settles O60: a step works on the bus within the unchanged `PHYS_SIZE`, and it keeps the form of every other part of the state. -/
theorem stepKeepsInvariant : Obligations.StepKeepsInvariant := by
  intro s t hs h
  obtain ⟨hmem, hpipeline, hcontrol⟩ := (inv_iff s).mp hs
  have hform := step_formOk ⟨hpipeline, hcontrol⟩ t h
  exact (inv_iff t).mpr ⟨(step_stateWorks h).memoryInv hmem, hform.pipeline, hform.control⟩

/-- Settles O58: by evaluation, every bank of the reset state being empty. -/
theorem resetMeetsInvariant : Obligations.ResetMeetsInvariant := by
  unfold Obligations.ResetMeetsInvariant
  decide

/-- Settles O57: each element of the reset state by evaluation; every channel, binding and register is the default of an empty bank. -/
theorem resetState : Obligations.ResetState := by
  refine ⟨fun _ => ⟨rfl, rfl⟩, fun _ _ => ⟨rfl, fun _ => rfl⟩, rfl, rfl, rfl, rfl, fun _ => rfl, rfl, fun _ => rfl, ?_⟩
  decide

end
end

section
/-! PROOFS. Refusals (R602): where each unit of the pipeline, each instruction and each move of an agent refuses, and why (R86, R340, R481,
R486, R598). -/

namespace Sys2Proof.Machine
open Sys2Proof

/-! ### Results that refuse only for a cause -/

/-- Every refusal of the result is one of `C`. -/
structure RefusesOnly {α : Type} (C : Refusal → Prop) (r : Except Refusal α) : Prop where
  cause : ∀ e, r = .error e → C e

section refusesOnly
variable {α β : Type} {C : Refusal → Prop}

theorem refusesOnly_ok (a : α) : RefusesOnly C (.ok a) := ⟨fun _ h => nomatch h⟩

theorem refusesOnly_error {e : Refusal} (h : C e) : RefusesOnly C (.error e : Except Refusal α) := ⟨fun _ he => Except.error.inj he ▸ h⟩

theorem RefusesOnly.bind {r : Except Refusal α} {f : α → Except Refusal β} (h : RefusesOnly C r)
    (hf : ∀ a, r = .ok a → RefusesOnly C (f a)) : RefusesOnly C (r.bind f) := by
  cases r with
  | ok a => exact hf a rfl
  | error e => exact refusesOnly_error (h.cause e rfl)

theorem RefusesOnly.map {r : Except Refusal α} (f : α → β) (h : RefusesOnly C r) : RefusesOnly C (r.map f) := by
  cases r with
  | ok a => exact refusesOnly_ok (f a)
  | error e => exact refusesOnly_error (h.cause e rfl)

theorem RefusesOnly.mono {D : Refusal → Prop} {r : Except Refusal α} (h : RefusesOnly C r) (hD : ∀ e, C e → D e) : RefusesOnly D r :=
  ⟨fun e he => hD e (h.cause e he)⟩

theorem refusesOnly_ite {c : Prop} [Decidable c] {r q : Except Refusal α} (hr : c → RefusesOnly C r) (hq : ¬ c → RefusesOnly C q) :
    RefusesOnly C (if c then r else q) := by
  split
  case isTrue h => exact hr h
  case isFalse h => exact hq h

theorem loopM_refusesOnly {f : Nat → α → Except Refusal α} (h : ∀ i a, RefusesOnly C (f i a)) (n start : Nat) (a : α) :
    RefusesOnly C (loopM f n start a) := by
  induction n generalizing start a with
  | zero => exact refusesOnly_ok a
  | succ n ih =>
    rw [loopM]
    split
    case h_1 b _ => exact ih (start + 1) b
    case h_2 e he => exact refusesOnly_error ((h start a).cause e he)

end refusesOnly

/-! ### Enumerations and the pixel stage (R598) -/

/-- The word is outside its enumeration, and an enabled test or operation uses it. -/
def EnumCause (e : Enums) (p : PixelState) (r : Refusal) : Prop := ∃ w, r = .badEnum w ∧ enumOutside e p w

theorem member_refusesOnly {α : Type} {C : Refusal → Prop} {table : List (Word × α)} {w : Word}
    (h : isMember table w = false → C (.badEnum w)) : RefusesOnly C (member table w) := by
  refine ⟨fun e he => ?_⟩
  obtain ⟨hnone, rfl⟩ := member_error.mp he
  exact h (by rw [isMember, hnone]; rfl)

section pixel
variable {e : Enums} {p : PixelState}

theorem alphaTest_refusesOnly (src : Word) : RefusesOnly (EnumCause e p) (alphaTest e p src) :=
  refusesOnly_ite (fun hen => (member_refusesOnly fun hw => ⟨_, rfl, .inl ⟨hen, rfl, hw⟩⟩).map _) fun _ => refusesOnly_ok _

theorem stencilTest_refusesOnly (t : Surface) (sd : BitVec 8) : RefusesOnly (EnumCause e p) (stencilTest e t p sd) := by
  refine refusesOnly_ite (fun hen => ?_) fun _ => refusesOnly_ok _
  exact (member_refusesOnly fun hw => ⟨_, rfl, .inr (.inl ⟨(Bool.and_eq_true_iff.mp hen).2, .inl ⟨rfl, hw⟩⟩)⟩).map _

theorem depthTest_refusesOnly (t : Surface) (zi zd : Nat) : RefusesOnly (EnumCause e p) (depthTest e t p zi zd) := by
  refine refusesOnly_ite (fun hen => ?_) fun _ => refusesOnly_ok _
  exact (member_refusesOnly fun hw => ⟨_, rfl, .inr (.inr (.inl ⟨(Bool.and_eq_true_iff.mp hen).2, rfl, hw⟩))⟩).map _

/-- A stencil operation is refused only where its word is one of the three of an enabled stencil test. -/
theorem stencilOp_refusesOnly {op : Word} (hen : p.stencilTestEn = true)
    (hop : op = p.stencilOpFail ∨ op = p.stencilOpZfail ∨ op = p.stencilOpZpass) (sd : BitVec 8) :
    RefusesOnly (EnumCause e p) (stencilOp e p op sd) :=
  ((member_refusesOnly fun hw => ⟨_, rfl, .inr (.inl ⟨hen, .inr ⟨hop, hw⟩⟩)⟩).map _).map _

theorem stencilAfter_refusesOnly {op : Word} (hop : op = p.stencilOpFail ∨ op = p.stencilOpZfail ∨ op = p.stencilOpZpass)
    (sd : BitVec 8) : RefusesOnly (EnumCause e p) (stencilAfter e p op sd) :=
  refusesOnly_ite (fun hen => stencilOp_refusesOnly hen hop sd) fun _ => refusesOnly_ok _

/-- One channel of an enabled blend: MIN and MAX do not look at the factors (R560). -/
theorem blendChannel_refusesOnly (hoff : p.logicOpEn = false) (hen : p.blendEn = true) (c : Chan) (src dst : Word) :
    RefusesOnly (EnumCause e p) (blendChannel e p c src dst) := by
  have hcause {w : Word} (h : w = p.blendEq ∧ isMember e.equation w = false ∨
      usesFactors e p = true ∧ (w = p.blendSfactor ∨ w = p.blendDfactor) ∧ isMember e.factor w = false) : EnumCause e p (.badEnum w) :=
    ⟨w, rfl, .inr (.inr (.inr (.inr ⟨hoff, hen, h⟩)))⟩
  have hfactor (hu : usesFactors e p = true) {w : Word} (hw : w = p.blendSfactor ∨ w = p.blendDfactor) (value : Nat) :
      RefusesOnly (EnumCause e p) (scaled value (blendFactor e w c src dst p.blendColor)) :=
    ((member_refusesOnly fun hno => hcause (.inr ⟨hu, hw, hno⟩)).map _).map _
  refine (member_refusesOnly fun hno => hcause (.inl ⟨rfl, hno⟩)).bind fun k hk => ?_
  have huses (hne : k ≠ .min ∧ k ≠ .max) : usesFactors e p = true := by simpa [usesFactors, member_ok.mp hk] using hne
  cases k with
  | add | subtract =>
    have hu := huses ⟨nofun, nofun⟩
    exact (hfactor hu (.inl rfl) _).bind fun _ _ => (hfactor hu (.inr rfl) _).map _
  | reverseSubtract =>
    have hu := huses ⟨nofun, nofun⟩
    exact (hfactor hu (.inr rfl) _).bind fun _ _ => (hfactor hu (.inl rfl) _).map _
  | min | max => exact refusesOnly_ok _

theorem shadeResult_refusesOnly (src dst : Word) : RefusesOnly (EnumCause e p) (shadeResult e p src dst) := by
  refine refusesOnly_ite (fun hen => ?logic) fun hoff => refusesOnly_ite (fun hen => ?blend) fun _ => refusesOnly_ok _
  case logic => exact (member_refusesOnly fun hw => ⟨_, rfl, .inr (.inr (.inr (.inl ⟨hen, rfl, hw⟩)))⟩).map _
  case blend =>
    have hchan (c : Chan) := blendChannel_refusesOnly (e := e) (Bool.eq_false_of_not_eq_true hoff) hen c src dst
    exact (hchan .r).bind fun _ _ => (hchan .g).bind fun _ _ => (hchan .b).bind fun _ _ => (hchan .a).map _

end pixel

section draw
variable (d : Draw)

theorem pixelTests_refusesOnly (x y zi zd : Nat) (sd : BitVec 8) (src : Word) (b : Bus) :
    RefusesOnly (EnumCause d.enums d.pix) (pixelTests d x y zi zd sd src b) := by
  refine (stencilTest_refusesOnly d.surf sd).bind fun stencilPassed hst => refusesOnly_ite (fun _ => ?passed) fun hfailed => ?failed
  case passed =>
    refine (depthTest_refusesOnly d.surf zi zd).bind fun depthPassed _ => refusesOnly_ite (fun _ => ?pass) fun _ => ?zfail
    case pass =>
      have hstencil : RefusesOnly (EnumCause d.enums d.pix) (passStencil d.enums d.surf d.pix sd) :=
        refusesOnly_ite (fun _ => stencilAfter_refusesOnly (.inr (.inr rfl)) sd) fun _ => refusesOnly_ok _
      exact hstencil.bind fun _ _ => ((shadeResult_refusesOnly ..).map _).map _
    case zfail => exact (stencilAfter_refusesOnly (.inr (.inl rfl)) sd).map _
  case failed =>
    have hen := stencilTestEn_of_failed (Bool.eq_false_of_not_eq_true hfailed ▸ hst)
    exact (stencilOp_refusesOnly hen (.inl rfl) sd).map _

theorem pixel_refusesOnly (x y : Nat) (z src : Word) (b : Bus) : RefusesOnly (EnumCause d.enums d.pix) (pixel d x y z src b) :=
  refusesOnly_ite (fun _ => refusesOnly_ok _) fun _ => refusesOnly_ite (fun _ => refusesOnly_ok _) fun _ =>
    (alphaTest_refusesOnly src).bind fun _ _ => refusesOnly_ite (fun _ => pixelTests_refusesOnly d ..) fun _ => refusesOnly_ok _

end draw

/-! ### The combiners (R481, R486) -/

theorem cmbReg_refusesOnly (g : CmbRegs) (code : BitVec 4) : RefusesOnly (· = .cmbReserved) (cmbReg g code) := by
  unfold cmbReg
  split
  case h_13 | h_14 => exact refusesOnly_ite (fun _ => refusesOnly_ok _) fun _ => refusesOnly_error rfl
  case h_15 => exact refusesOnly_error rfl
  all_goals exact refusesOnly_ok _

theorem cmbScale_refusesOnly (op : BitVec 3) : RefusesOnly (· = .cmbReserved) (cmbScale op) := by
  unfold cmbScale
  split
  case h_7 => exact refusesOnly_error rfl
  all_goals exact refusesOnly_ok _

theorem generalStage_refusesOnly (q : Who) (st : CmbStage) (r : CmbRegs × Bus) :
    RefusesOnly (· = .cmbReserved) (generalStage q st r) := by
  have hrgb (g : CmbRegs) (byte : BitVec 8) : RefusesOnly (· = .cmbReserved) (cmbInputRgb g byte) := (cmbReg_refusesOnly ..).map _
  have halpha (g : CmbRegs) (byte : BitVec 8) : RefusesOnly (· = .cmbReserved) (cmbInputAlpha g byte) := (cmbReg_refusesOnly ..).map _
  have hrgbStage (g : CmbRegs) (icw ocw : Word) : RefusesOnly (· = .cmbReserved) (stageRgb g icw ocw) :=
    (hrgb ..).bind fun _ _ => (hrgb ..).bind fun _ _ => (hrgb ..).bind fun _ _ => (hrgb ..).bind fun _ _ =>
      (cmbScale_refusesOnly _).map _
  have halphaStage (g : CmbRegs) (icw ocw : Word) : RefusesOnly (· = .cmbReserved) (stageAlpha g icw ocw) :=
    (halpha ..).bind fun _ _ => (halpha ..).bind fun _ _ => (halpha ..).bind fun _ _ => (halpha ..).bind fun _ _ =>
      (cmbScale_refusesOnly _).map _
  exact (hrgbStage ..).bind fun _ _ => (halphaStage ..).map _

theorem finalStage_refusesOnly (c : Combiner) (g : CmbRegs) : RefusesOnly (· = .cmbReserved) (finalStage c g) := by
  have hrgb (g : CmbRegs) (byte : BitVec 8) : RefusesOnly (· = .cmbReserved) (cmbInputRgb g byte) := (cmbReg_refusesOnly ..).map _
  exact (hrgb ..).bind fun _ _ => (hrgb ..).bind fun _ _ => (hrgb ..).bind fun _ _ => (hrgb ..).bind fun _ _ => (hrgb ..).bind fun _ _ =>
    (hrgb ..).bind fun _ _ => ((cmbReg_refusesOnly ..).map _).map _

/-- The combiner engine refuses only a configuration that is not legal. -/
theorem combine_refusesOnly (q : Who) (c : Combiner) (p : Vec4) (t0 t1 t2 t3 : Word) (b : Bus) :
    RefusesOnly (fun r => r = .cmbReserved ∧ combinerLegal c = false) (combine q c p t0 t1 t2 t3 b) := by
  have hreserved : RefusesOnly (· = .cmbReserved) (combine q c p t0 t1 t2 t3 b) :=
    (loopM_refusesOnly (fun _ _ => generalStage_refusesOnly ..) ..).bind fun _ _ => (finalStage_refusesOnly ..).map _
  refine ⟨fun e he => ⟨hreserved.cause e he, Bool.eq_false_of_not_eq_true fun hlegal => ?_⟩⟩
  obtain ⟨a, ha⟩ := combine_completes (combinerLegal_parts hlegal) q p t0 t1 t2 t3 b
  exact nomatch ha.symm.trans he

/-! ### Triangles -/

/-- Why drawing with a shader can be refused: the combiner's configuration under the combiner shader, or a word outside its enumeration. -/
def DrawCause (d : Draw) (sel : Shader) (r : Refusal) : Prop :=
  (r = .cmbReserved ∧ sel = .combiner ∧ combinerLegal d.cmb = false) ∨ EnumCause d.enums d.pix r

section triangle
variable (d : Draw) (sel : Shader)

theorem shade_refusesOnly (p : Par13) (b : Bus) : RefusesOnly (DrawCause d sel) (shade d sel p b) := by
  cases sel with
  | flat | tex0 => exact refusesOnly_ok _
  | combiner => exact (combine_refusesOnly ..).mono fun e ⟨he, hlegal⟩ => .inl ⟨he, rfl, hlegal⟩

theorem rasterPixel_refusesOnly (a b c : TVertex) (x y : Nat) (bus : Bus) :
    RefusesOnly (DrawCause d sel) (rasterPixel d sel a b c x y bus) :=
  refusesOnly_ite (fun _ => (shade_refusesOnly ..).bind fun _ _ => (pixel_refusesOnly ..).mono fun _ => .inr) fun _ => refusesOnly_ok _

theorem raster_refusesOnly (a b c : TVertex) (bus : Bus) : RefusesOnly (DrawCause d sel) (raster d sel a b c bus) :=
  refusesOnly_ite
    (fun _ => loopM_refusesOnly (fun y _ => loopM_refusesOnly (fun x _ => rasterPixel_refusesOnly d sel a b c x y _) ..) ..)
    fun _ => refusesOnly_ok _

theorem fanFrom_refusesOnly (first : TVertex) (l : List TVertex) (bus : Bus) : RefusesOnly (DrawCause d sel) (fanFrom d sel first l bus) := by
  induction l generalizing bus with
  | nil => exact refusesOnly_ok bus
  | cons p rest ih =>
    cases rest with
    | nil => exact refusesOnly_ok bus
    | cons q rest => exact (raster_refusesOnly ..).bind fun u _ => ih u

theorem triangle_refusesOnly (a b c : TVertex) (bus : Bus) : RefusesOnly (DrawCause d sel) (triangle d sel a b c bus) := by
  refine refusesOnly_ite (fun _ => raster_refusesOnly ..) fun _ => refusesOnly_ite (fun _ => refusesOnly_ok bus) fun _ => ?_
  unfold drawFan
  split
  · exact refusesOnly_ok bus
  · exact fanFrom_refusesOnly ..

theorem drawTriangles_refusesOnly (l : List (TVertex × TVertex × TVertex)) (bus : Bus) :
    RefusesOnly (DrawCause d sel) (drawTriangles d sel l bus) := by
  induction l generalizing bus with
  | nil => exact refusesOnly_ok bus
  | cons t rest ih => exact (triangle_refusesOnly ..).bind fun u _ => ih u

end triangle

/-! ### The run of a vertex program (R340) -/

/-- Why a run can be refused: the instruction at `vpip` is not legal. -/
def ProgramCause (l : VpLayout) (u : VProg) (r : Refusal) : Prop :=
  ∃ p, r = .vpReserved p ∧ p.toNat < 256 ∧ instrLegal l u p.toNat = false

/-- Whether an instruction is legal depends on the instruction memory alone. -/
theorem instrLegal_congr {l : VpLayout} {u w : VProg} (h : w.vpi = u.vpi) (i : Nat) : instrLegal l w i = instrLegal l u i := by
  simp only [instrLegal, vpWordsAt, vpiAt, h]

theorem vpLoop_refusesOnly {par : Params} (q : Who) (n : Nat) {u : VProg} (b : Bus) (hip : u.ip.toNat ≤ 256) :
    RefusesOnly (ProgramCause par.tables.vpLayout u) (vpLoop par q n u b) := by
  induction n generalizing u b with
  | zero => exact refusesOnly_ok _
  | succ n ih =>
    refine refusesOnly_ite (fun _ => refusesOnly_ok _) fun hne => ?_
    have hlt : u.ip.toNat < 256 := lt_of_le_of_ne hip fun he => hne (BitVec.eq_of_toNat_eq he)
    refine RefusesOnly.bind ?first fun r hr => refusesOnly_ite (fun _ => refusesOnly_ok _) fun _ => ?rest
    case first =>
      refine ⟨fun e he => ?_⟩
      cases hlegal : instrLegal par.tables.vpLayout u u.ip.toNat with
      | true => rw [vpExecute_legal hlegal] at he; cases he
      | false => rw [vpExecute_reserved hlegal] at he; cases he; exact ⟨u.ip, rfl, hlt, hlegal⟩
    case rest =>
      have hkept : r.1.vpi = u.vpi := by rw [(vpExecute_result _ q _ _ _ u b hr).1]
      have hnext := vpExecute_nextIp hr hlt
      refine (ih (u := { r.1 with ip := r.1.ip + 1 }) r.2 (by dsimp only; omega)).mono ?_
      rintro e ⟨p, he, hp, hillegal⟩
      exact ⟨p, he, hp, (instrLegal_congr hkept _).symm.trans hillegal⟩

end Sys2Proof.Machine
end

section
/-! PROOFS. Refusals of an emission, of an instruction and of a step (R602). -/

namespace Sys2Proof.Machine
open Sys2Proof

/-! ### Emission (R255) -/

/-- Why emitting a vertex in `s` can be refused: the vertex program in program mode, or the drawing of its triangles. -/
def StateCause (s : State) (r : Refusal) : Prop :=
  (s.vp.mode = true ∧ ProgramCause s.par.tables.vpLayout s.vp r) ∨ DrawCause (drawOf s) s.prim.rsel r

theorem ProgramCause.congr {l : VpLayout} {u w : VProg} (h : w.vpi = u.vpi) {r : Refusal} (hw : ProgramCause l w r) :
    ProgramCause l u r := by
  obtain ⟨p, hr, hp, hillegal⟩ := hw
  exact ⟨p, hr, hp, (instrLegal_congr h _).symm.trans hillegal⟩

/-- The causes depend on the parameters, the pixel state, the shader chosen, the combiners, the mode and the program memory alone. -/
theorem StateCause.congr {s t : State} (hpar : t.par = s.par) (hpix : t.pix = s.pix) (hsel : t.prim.rsel = s.prim.rsel)
    (hcmb : t.cmb = s.cmb) (hmode : t.vp.mode = s.vp.mode) (hvpi : t.vp.vpi = s.vp.vpi) {r : Refusal} (h : StateCause t r) :
    StateCause s r := by
  rcases h with ⟨hm, hp⟩ | ⟨hr, hs, hl⟩ | hw
  · exact .inl ⟨hmode ▸ hm, .congr hvpi (hpar ▸ hp)⟩
  · exact .inr (.inl ⟨hr, hsel ▸ hs, (congrArg combinerLegal hcmb).symm.trans hl⟩)
  · refine .inr (.inr ?_)
    have henums : (drawOf t).enums = (drawOf s).enums := congrArg Params.enums hpar
    have hpixels : (drawOf t).pix = (drawOf s).pix := hpix
    exact henums ▸ hpixels ▸ hw

theorem transformVertex_refusesOnly (s : State) (vtx : Bank Vec4) : RefusesOnly (StateCause s) (transformVertex s vtx) := by
  refine refusesOnly_ite (fun hmode => ?_) fun _ => refusesOnly_ok _
  have hstart : (s.vp.start.setWidth 9).toNat ≤ 256 := by
    rw [BitVec.toNat_setWidth]
    omega
  exact ((vpLoop_refusesOnly (who s) 257 s.bus hstart).mono fun _ h => .inl ⟨hmode, h⟩).map _

theorem emit_refusesOnly (vtx : Bank Vec4) (s : State) : RefusesOnly (StateCause s) (emit vtx s) :=
  refusesOnly_ite (fun _ => refusesOnly_ok _) fun _ => (transformVertex_refusesOnly s vtx).bind fun _ _ =>
    (((drawTriangles_refusesOnly ..).mono fun _ h => .inr h).map _).map _

/-- Emitting a vertex leaves the causes as they are. -/
theorem StateCause.of_emit {vtx : Bank Vec4} {s t : State} (ht : emit vtx s = .ok t) {r : Refusal} (h : StateCause t r) :
    StateCause s r := by
  have hframe := emit_frame vtx s ht
  have hprogram := emit_program vtx s ht
  exact h.congr (by rw [hframe]) (by rw [hframe]) (emit_rsel ht) (by rw [hframe]) (by rw [hprogram]) (by rw [hprogram])

theorem emitIndexed_refusesOnly (n : Word) (s : State) : RefusesOnly (StateCause s) (emitIndexed n s) :=
  (emit_refusesOnly _ { s with bus := (fetchVertex (who s) s.va s.pvtx n s.bus).2 }).mono fun _ => .congr rfl rfl rfl rfl rfl rfl

theorem StateCause.of_emitIndexed {n : Word} {s t : State} (ht : emitIndexed n s = .ok t) {r : Refusal} (h : StateCause t r) :
    StateCause s r := StateCause.of_emit ht h

theorem emitRange_refusesOnly (start : Word) (count : Nat) (s : State) : RefusesOnly (StateCause s) (emitRange start count s) := by
  induction count generalizing start s with
  | zero => exact refusesOnly_ok s
  | succ count ih => exact (emitIndexed_refusesOnly start s).bind fun u hu => (ih (start + 1) u).mono fun _ => .of_emitIndexed hu

theorem emitInline_refusesOnly (s : State) : RefusesOnly (StateCause s) (emitInline s) :=
  ((emit_refusesOnly _ { s with bus := (inlineVertex (who s) s.va s.pvtx s.bus).2 }).mono fun _ => .congr rfl rfl rfl rfl rfl rfl).map _

/-! ### Instructions -/

/-- Every refusal of the run is one of `C`. -/
structure RunRefusesOnly (C : Refusal → Prop) (r : Run) : Prop where
  cause : ∀ e, r = .refused e → C e

section run
variable {C : Refusal → Prop}

theorem runRefusesOnly_next (t : State) : RunRefusesOnly C (.next t) := ⟨fun _ h => nomatch h⟩

theorem runRefusesOnly_ofExcept {r : Except Refusal State} (h : RefusesOnly C r) : RunRefusesOnly C (Run.ofExcept r) := by
  cases r with
  | ok t => exact runRefusesOnly_next t
  | error e => exact ⟨fun _ he => Host.Outcome.refused.inj he ▸ h.cause e rfl⟩

theorem runRefusesOnly_ite {c : Prop} [Decidable c] {r q : Run} (hr : c → RunRefusesOnly C r) (hq : ¬ c → RunRefusesOnly C q) :
    RunRefusesOnly C (if c then r else q) := by
  split
  case isTrue h => exact hr h
  case isFalse h => exact hq h

theorem RunRefusesOnly.andThen {r : Run} {f : State → Run} (h : RunRefusesOnly C r) (hf : ∀ t, RunRefusesOnly C (f t)) :
    RunRefusesOnly C (r.andThen f) := by
  cases r with
  | next t => exact hf t
  | fault => exact ⟨fun _ he => nomatch he⟩
  | refused e => exact ⟨fun _ he => Host.Outcome.refused.inj he ▸ h.cause e rfl⟩

end run

/-- An emission of the persistent vertex, whatever was stored in it before. -/
theorem emitPersistent_refusesOnly (s : State) (pvtx : Bank Vec4) :
    RefusesOnly (StateCause s) (emitPersistent { s with pvtx := pvtx }) :=
  (emit_refusesOnly pvtx { s with pvtx := pvtx }).mono fun _ => .congr rfl rfl rfl rfl rfl rfl

theorem emitWhen_refusesOnly (c : Bool) (s : State) (pvtx : Bank Vec4) :
    RunRefusesOnly (StateCause s) (emitWhen c { s with pvtx := pvtx }) :=
  runRefusesOnly_ite (fun _ => runRefusesOnly_ofExcept (emitPersistent_refusesOnly s pvtx)) fun _ => runRefusesOnly_next _

theorem execInlineArray_refusesOnly (d : Word) (s : State) : RunRefusesOnly (StateCause s) (execInlineArray d s) := by
  have hinline : RefusesOnly (StateCause s) (emitInline { s with va := inlinePush s.va d }) :=
    (emitInline_refusesOnly _).mono fun _ => .congr rfl rfl rfl rfl rfl rfl
  unfold execInlineArray
  exact runRefusesOnly_ite (fun _ => runRefusesOnly_next _) fun _ =>
    runRefusesOnly_ite (fun _ => runRefusesOnly_ofExcept hinline) fun _ => runRefusesOnly_next _

/-- Outside a vertex program, the instructions that emit vertices are the ones that can be refused. -/
theorem exec_refusesOnly {i : Instr} (s : State) (hi : isProgramInstr i = false) : RunRefusesOnly (StateCause s) (exec i s) := by
  cases i with
  | vpNop | vpMov | vpMul | vpAdd | vpMad | vpDp3 | vpDph | vpDp4 | vpDst | vpMin | vpMax | vpSlt | vpSge | vpArl
  | vpSNop | vpSImv | vpSRcp | vpSRcc | vpSRsq | vpSExp | vpSLog | vpSLit => cases hi
  | noOperation | transformConstant | specularFogFactor | beginEnd =>
    exact runRefusesOnly_ite (fun _ => runRefusesOnly_next _) fun _ => runRefusesOnly_next _
  | vertex3f2 | vertex4f3 => exact runRefusesOnly_ofExcept (emitPersistent_refusesOnly s _)
  | vertexData2fM n | vertexData4sM n => exact runRefusesOnly_ite (fun _ => runRefusesOnly_next _) fun _ => emitWhen_refusesOnly _ s _
  | vertexData4fM | vertexData2s | vertexData4ub => exact emitWhen_refusesOnly _ s _
  | arrayElement16 d =>
    refine runRefusesOnly_ofExcept ((emitIndexed_refusesOnly ..).bind fun u hu => ?_)
    exact (emitIndexed_refusesOnly _ u).mono fun _ => .of_emitIndexed hu
  | arrayElement32 => exact runRefusesOnly_ofExcept (emitIndexed_refusesOnly ..)
  | drawArrays => exact runRefusesOnly_ofExcept (emitRange_refusesOnly ..)
  | inlineArray d => exact execInlineArray_refusesOnly d s
  | _ => exact runRefusesOnly_next _

/-! ### The puller -/

/-- A command word is no instruction of a vertex program (R110). -/
theorem decodeCommandBy_notProgram (rows : List CommandRow) (w : Word) : isProgramInstr (decodeCommandBy rows w) = false := by
  rcases decodeCommandBy_cases rows w with h | ⟨r, -, -, h⟩
  · rw [h]; rfl
  · rw [h]; cases r.kind <;> rfl

section puller
variable {s : State}

theorem methodWrite_refusesOnly (d : Word) : RunRefusesOnly (StateCause s) (methodWrite d s) := by
  rcases methodWrite_cases d s with hw | ⟨i, m, hm, hw⟩ <;> rw [hw]
  · exact runRefusesOnly_next _
  · exact exec_refusesOnly (storeWord d s) (by rw [isProgramInstr, hm]; rfl)

theorem processWord_refusesOnly (w : Word) : RunRefusesOnly (StateCause s) (processWord w s) := by
  refine runRefusesOnly_ite (fun _ => runRefusesOnly_next _) fun _ => runRefusesOnly_ite (fun _ => ?command) fun _ =>
    runRefusesOnly_ite (fun _ => ?bind) fun _ => ?data
  case command => exact exec_refusesOnly s (decodeCommandBy_notProgram ..)
  case bind => exact exec_refusesOnly s rfl
  case data => exact (methodWrite_refusesOnly w).andThen fun _ => runRefusesOnly_next _

theorem pullerStep_refusesOnly (ch : BitVec 5) : RunRefusesOnly (StateCause s) (pullerStep ch s) :=
  runRefusesOnly_ite (fun _ => processWord_refusesOnly (s := (fetchWord { s with cur := ch }).2) _) fun _ => runRefusesOnly_next s

end puller

/-! ### The host's accesses (R86) -/

/-- The alignment of an MMIO access, in numbers (R86). -/
theorem mmioAligned_iff (off : Word) (bytes : Nat) : mmioAligned off bytes = true ↔ bytes = 4 ∧ off.toNat % 4 = 0 := by
  have hlow : (off.extractLsb' 0 2).toNat = off.toNat % 4 := by
    rw [BitVec.extractLsb'_toNat, Nat.shiftRight_zero]
  rw [mmioAligned, Bool.and_eq_true, decide_eq_true_iff, decide_eq_true_iff, ← hlow]
  exact and_congr_right' ⟨fun h => h ▸ rfl, fun h => BitVec.eq_of_toNat_eq h⟩

theorem not_aligned {off : Word} {bytes : Nat} (h : ¬ mmioAligned off bytes = true) : bytes ≠ 4 ∨ off.toNat % 4 ≠ 0 := by
  rw [mmioAligned_iff] at h
  exact not_and_or.mp h

theorem refused_of_ite {c : Prop} [Decidable c] {t : State} {e r : Refusal}
    (h : (if c then (.next t : Run) else .refused e) = .refused r) : r = e ∧ ¬ c := by
  split at h
  case isTrue => cases h
  case isFalse hc => exact ⟨(Host.Outcome.refused.inj h).symm, hc⟩

/-! ### The step -/

/-- A word outside its enumeration makes the pixel state's words not all members. -/
theorem enumsLegal_of_outside {e : Enums} {p : PixelState} {w : Word} (h : enumOutside e p w) : enumsLegal e p = false := by
  rcases h with ⟨hen, rfl, hw⟩ | ⟨hen, ⟨rfl, hw⟩ | ⟨rfl | rfl | rfl, hw⟩⟩ | ⟨hen, rfl, hw⟩ | ⟨hen, rfl, hw⟩ |
    ⟨hoff, hen, ⟨rfl, hw⟩ | ⟨hu, rfl | rfl, hw⟩⟩ <;> simp [enumsLegal, *]

/-- The causes of a refused draw with the whole memory, configuration or pixel state that is then not legal. -/
theorem StateCause.spec {s : State} {r : Refusal} (h : StateCause s r) :
    (∃ p, r = .vpReserved p ∧ s.vp.mode = true ∧ p.toNat < 256 ∧ instrLegal s.par.tables.vpLayout s.vp p.toNat = false ∧
      programLegal s.par.tables.vpLayout s.vp = false) ∨
    (r = .cmbReserved ∧ s.prim.rsel = .combiner ∧ combinerLegal s.cmb = false) ∨
    ∃ w, r = .badEnum w ∧ enumOutside s.par.enums s.pix w ∧ enumsLegal s.par.enums s.pix = false := by
  rcases h with ⟨hm, p, hr, hp, hillegal⟩ | hcombiner | ⟨w, hr, hw⟩
  · refine .inl ⟨p, hr, hm, hp, hillegal, Bool.eq_false_of_not_eq_true fun hlegal => ?_⟩
    exact nomatch (instrLegal_of_programLegal hlegal hp).symm.trans hillegal
  · exact .inr (.inl hcombiner)
  · exact .inr (.inr ⟨w, hr, hw, enumsLegal_of_outside hw⟩)

end Sys2Proof.Machine

section
open Sys2Proof Sys2Proof.Machine

/-- Settles O20: a puller step is refused only by a draw, whose causes are found unit by unit, and the host's moves by the alignment of an
MMIO access alone. -/
theorem refusalsAreTheSpecs : Obligations.RefusalsAreTheSpecs := by
  intro s r h
  unfold step cycle at h
  split at h
  case h_1 a rest ha =>
    rw [ha]
    cases a with
    | puller ch => exact .inr ((pullerStep_refusesOnly ch).cause r h : StateCause { s with agenda := rest } r).spec
    | mmioWrite addr bytes v =>
      obtain ⟨hr, halign⟩ := refused_of_ite h
      exact .inl ⟨hr, addr, bytes, not_aligned halign, .inl ⟨v, rfl⟩⟩
    | mmioRead addr bytes =>
      obtain ⟨hr, halign⟩ := refused_of_ite h
      exact .inl ⟨hr, addr, bytes, not_aligned halign, .inr rfl⟩
    | vblank | memWrite | placeObject => cases h
  case h_2 =>
    split at h
    case h_1 ch _ => exact .inr ((pullerStep_refusesOnly ch).cause r h).spec
    case h_2 => cases h

end
end

section
/-! PROOFS. Methods of the pixel state (R520 to R541), the isolation of channels, the diagnostic log, `update_irq`, the resume events and
the host's accesses (R58, R86, R604 to R625). -/

namespace Sys2Proof.Machine
open Sys2Proof

/-! ### The interrupt line (R604) -/

theorem bitAt_getLsbD (b : Bool) (k : Nat) {n : Nat} (hn : n < 32) : (bitAt b k).getLsbD n = (decide (n = k) && b) := by
  cases b with
  | false => simp [bitAt]
  | true =>
    by_cases hlt : n < k
    · simp [bitAt, hn, hlt, Nat.ne_of_lt hlt]
    · have hsub : n - k = 0 ↔ n = k := by omega
      simp [bitAt, hn, hlt, hsub]

/-- The bits of `PMC.intr` after `update_irq`, the two mirror bits and the others. -/
theorem updateIrq_pmcIntr (k : IrqBits) (r : Irq) {n : Nat} (hn : n < 32) :
    (updateIrq k r).pmcIntr.getLsbD n =
      (decide (n = k.pgraph.toNat ∧ r.pgraphIntr &&& r.pgraphEnable ≠ 0) ||
        decide (n = k.pcrtc.toNat ∧ r.pcrtcIntr &&& r.pcrtcEnable ≠ 0) ||
        decide (n ≠ k.pgraph.toNat ∧ n ≠ k.pcrtc.toNat) && r.pmcIntr.getLsbD n) := by
  have hbits : (updateIrq k r).pmcIntr.getLsbD n =
      (r.pmcIntr.getLsbD n && !(decide (n = k.pgraph.toNat) || decide (n = k.pcrtc.toNat)) ||
        decide (n = k.pgraph.toNat) && (r.pgraphIntr &&& r.pgraphEnable != 0) ||
        decide (n = k.pcrtc.toNat) && (r.pcrtcIntr &&& r.pcrtcEnable != 0)) := by
    simp only [updateIrq, pmcMirrorMask, BitVec.getLsbD_or, BitVec.getLsbD_and, BitVec.getLsbD_not, bitAt_getLsbD _ _ hn, hn,
      decide_true, Bool.true_and, Bool.and_true]
  rw [hbits]
  by_cases hg : n = k.pgraph.toNat <;> by_cases hc : n = k.pcrtc.toNat <;> simp [hg, hc, bne, BEq.beq]

/-- The source word of a notification is a sum: its three parts share no bit (R220). -/
theorem notifySource_eq (ch : BitVec 5) (subc : BitVec 3) :
    notifySource ch subc = BitVec.ofNat 32 (ch.toNat * 2 ^ 20 + subc.toNat * 2 ^ 16 + 0x0100) := by
  revert ch subc
  decide

/-! ### The MMIO map (R610) -/

theorem mapOk_aligned {m : MmioMap} (h : mapOk m = true) : ∀ off ∈ mapOffsets m, off.toNat % 4 = 0 := by
  simp only [mapOk, Bool.and_eq_true, decide_eq_true_eq, List.all_eq_true] at h
  exact fun off ho => (h.1.1.1.2 off ho).1

/-- The registers of a channel's window lie at aligned offsets. -/
theorem windowOffset_aligned (ch : BitVec 5) {r : BitVec 16} (hr : r.toNat % 4 = 0) : (windowOffset ch r).toNat % 4 = 0 := by
  rw [windowOffset, BitVec.toNat_ofNat]
  omega

theorem mapOk_window {m : MmioMap} (h : mapOk m = true) (ch : BitVec 5) :
    (windowOffset ch m.dmaPut).toNat % 4 = 0 ∧ (windowOffset ch m.dmaGet).toNat % 4 = 0 := by
  simp only [mapOk, Bool.and_eq_true, decide_eq_true_eq] at h
  obtain ⟨⟨-, hput⟩, hget⟩ := h
  exact ⟨windowOffset_aligned ch hput, windowOffset_aligned ch hget⟩

/-- An offset that the map does not name is plain storage (R58). -/
theorem mmioReg_plain {m : MmioMap} {off : Word} (h : ¬ namedOffset m off) : mmioReg m off = .plain := by
  have hreg := mmioReg_registerAt m off
  generalize mmioReg m off = reg at hreg ⊢
  have hnamed (ho : off ∈ mapOffsets m) {P : Prop} : P := absurd (.inl ho) h
  cases reg with
  | plain => rfl
  | dmaPut ch => exact absurd (.inr ⟨ch, .inl hreg⟩) h
  | dmaGet ch => exact absurd (.inr ⟨ch, .inr hreg⟩) h
  | _ => exact hnamed (by simp only [registerAt] at hreg; simp [mapOffsets, hreg])

section access
variable {s : State} {off v : Word}

/-- The host's write of the aligned word at an offset of the aperture. -/
theorem hostMmioWrite_aligned (h : off.toNat % 4 = 0) : hostMmioWrite (s.par.mmioBase + off) 4 v s = .next (mmioStore off v s) := by
  rw [hostMmioWrite, mmioOffset_base, if_pos ((mmioAligned_iff off 4).mpr ⟨rfl, h⟩)]

theorem hostMmioRead_aligned (h : off.toNat % 4 = 0) :
    hostMmioRead (s.par.mmioBase + off) 4 s = .next { s with hostData := mmioValue off s } := by
  rw [hostMmioRead, mmioOffset_base, if_pos ((mmioAligned_iff off 4).mpr ⟨rfl, h⟩)]

theorem hostMmioWrite_store {t : State} (h : off.toNat % 4 = 0) (ht : mmioStore off v s = t) :
    hostMmioWrite (s.par.mmioBase + off) 4 v s = .next t := ht ▸ hostMmioWrite_aligned h

theorem hostMmioRead_value {w : Word} (h : off.toNat % 4 = 0) (hw : mmioValue off s = w) :
    hostMmioRead (s.par.mmioBase + off) 4 s = .next { s with hostData := w } := hw ▸ hostMmioRead_aligned h

/-- An access of another width or alignment is refused (R86, R602). -/
theorem hostMmio_refused {addr : Word} {bytes : Nat} (h : bytes ≠ 4 ∨ (addr - s.par.mmioBase).toNat % 4 ≠ 0) :
    hostMmioWrite addr bytes v s = .refused .mmioWidth ∧ hostMmioRead addr bytes s = .refused .mmioWidth := by
  have halign : ¬ mmioAligned (mmioOffset s addr) bytes = true := by rw [mmioAligned_iff]; exact not_and_or.mpr h
  rw [hostMmioWrite, hostMmioRead, if_neg halign, if_neg halign]
  exact ⟨rfl, rfl⟩

end access

/-! ### Resume events (R606, R607) -/

/-- `resumeIdle` changes the channels alone. -/
theorem resumeIdle_frame (u : State) : resumeIdle u = { u with chans := (resumeIdle u).chans } := by
  unfold resumeIdle
  generalize resumeAll .pgraphIdle u.chans = cs
  split <;> rfl

/-- A vblank changes the interrupt registers and the channels alone. -/
theorem vblankEvent_frame (s : State) : vblankEvent s = { s with
    irq := updateIrq s.par.irqBits { s.irq with pcrtcIntr := s.irq.pcrtcIntr ||| 1 }, chans := (vblankEvent s).chans } := by
  unfold vblankEvent
  generalize resumeAll .vblank s.chans = cs
  rfl

theorem vblankEvent_chans (s : State) : (vblankEvent s).chans = resumeAll .vblank s.chans := by rw [vblankEvent]

theorem chanAt_resumeIdle (u : State) (ch : BitVec 5) :
    chanAt (resumeIdle u) ch =
      if u.irq.pgraphIntr &&& u.par.irqBits.notify = 0 ∧ (chanAt u ch).pstate = .susp .pgraphIdle then
        { chanAt u ch with pstate := .run }
      else chanAt u ch := by
  by_cases hc : u.irq.pgraphIntr &&& u.par.irqBits.notify = 0
  · have hchans : (resumeIdle u).chans = resumeAll .pgraphIdle u.chans := by rw [resumeIdle, if_pos hc]
    simp only [chanAt_of_resumeAll hchans, hc, true_and]
  · rw [resumeIdle, if_neg hc, if_neg fun h => hc h.1]

/-! ### Bytes the host writes (R614) -/

theorem memByte_bankSet (m : Memory) (a c : Word) (v : Byte) :
    memByte (bankSet unlistedByte m a.toNat v) c = if c = a then v else memByte m c := by
  simp only [memByte, bankGet_set, ← BitVec.toNat_inj]

section hostWrite
variable (size : Nat) (a : Word) (data : List Byte) (m : Memory)

/-- A host write leaves the bytes that it does not reach or that lie outside memory. -/
theorem hostWriteBytes_other {c : Word} (h : ¬ inBytes c a data.length ∨ size ≤ c.toNat) :
    memByte (hostWriteBytes size a data m) c = memByte m c := by
  induction data generalizing a m with
  | nil => rfl
  | cons v rest ih =>
    have hrest : ¬ inBytes c (a + 1) rest.length ∨ size ≤ c.toNat := h.imp_left fun hn ⟨k, hk, hc⟩ =>
      hn ⟨k + 1, Nat.succ_lt_succ hk, hc.trans (add_one_ofNat a k)⟩
    rw [hostWriteBytes, ih _ _ hrest]
    split
    case isTrue hin =>
      have hne : c ≠ a := by
        rintro rfl
        rcases h with hn | hout
        · exact hn ⟨0, Nat.succ_pos _, (BitVec.add_zero c).symm⟩
        · omega
      rw [memByte_bankSet, if_neg hne]
    case isFalse => rfl

/-- A host write of at most the whole space leaves each of its bytes that lies in memory. -/
theorem hostWriteBytes_byte (hlen : data.length ≤ 2 ^ 32) {k : Nat} (hk : k < data.length)
    (hin : (a + BitVec.ofNat 32 k).toNat < size) :
    memByte (hostWriteBytes size a data m) (a + BitVec.ofNat 32 k) = data.getD k 0 := by
  induction data generalizing a m k with
  | nil => cases hk
  | cons v rest ih =>
    rw [List.length_cons] at hlen hk
    rw [hostWriteBytes]
    cases k with
    | zero =>
      have hlater : ¬ inBytes (a + BitVec.ofNat 32 0) (a + 1) rest.length := by
        rintro ⟨j, hj, he⟩
        rw [add_one_ofNat, BitVec.add_zero] at he
        exact ne_add_ofNat a (Nat.succ_pos j) (by omega) he
      rw [hostWriteBytes_other _ _ _ _ (.inl hlater)]
      rw [BitVec.add_zero] at hin ⊢
      rw [if_pos hin, memByte_bankSet, if_pos rfl]
      rfl
    | succ k =>
      rw [← add_one_ofNat] at hin ⊢
      exact ih _ _ (by omega) (by omega) hin

end hostWrite

end Sys2Proof.Machine

section
open Sys2Proof Sys2Proof.Machine

/-- Settles O18: a puller step works on the channel in progress alone. -/
theorem channelsIsolated : Obligations.ChannelsIsolated := by
  intro s t ch c rest ha h hc
  unfold step cycle at h
  rw [ha] at h
  rcases pullerStep_cases h with ⟨-, hkept⟩ | rfl
  · exact ⟨hkept.chan c hc, fun subc => ⟨hkept.sub c hc subc, hkept.reg c hc subc⟩⟩
  · exact ⟨rfl, fun _ => ⟨rfl, fun _ => rfl⟩⟩

/-- Settles O19: every step works on the bus, which appends to the log. -/
theorem diagnosticsOnlyGrow : Obligations.DiagnosticsOnlyGrow := fun _ _ h => (step_stateWorks h).bus.2

/-- Settles O27: each by evaluation, once the fields of the data word are written alike. -/
theorem testStateMethods : Obligations.TestStateMethods := by
  intro d s
  simp only [← bitOf_eq_wordBit, ← byteOf_zero]
  exact ⟨rfl, rfl, rfl, rfl, rfl, rfl, rfl, rfl, rfl, rfl, rfl⟩

/-- Settles O28: as O27. -/
theorem outputStateMethods : Obligations.OutputStateMethods := by
  intro d s
  simp only [← bitOf_eq_wordBit]
  exact ⟨rfl, rfl, rfl, rfl, rfl, rfl, rfl, rfl, rfl, rfl, rfl⟩

/-- Settles O13: the mirror bits one by one, and the two methods by evaluation. -/
theorem interruptLineAndWaits : Obligations.InterruptLineAndWaits := by
  refine ⟨fun k r => ⟨fun n hn => updateIrq_pmcIntr k r hn, ?level, rfl, rfl⟩, fun d s => ⟨rfl, fun hd => ?notify, ?wait⟩, rfl⟩
  case level => exact (Bool.eq_iff_iff.mpr (by simp [updateIrq]))
  case notify =>
    refine ⟨_, if_neg hd, rfl, setsAt_bankSet, ?_⟩
    rw [← notifySource_eq]
    rfl
  case wait => exact setsCurChan_setCur s _

/-- Settles O14: each event recomputes the line and sets the channels that wait for it running, and no others. -/
theorem resumeEvents : Obligations.ResumeEvents := by
  refine ⟨fun s v rest => ⟨fun ha => ?vblank, fun hm ha => ?intr⟩, rfl⟩
  case vblank =>
    have hstep : step s = agentStep .vblank { s with agenda := rest } := by rw [step, cycle, ha]
    exact ⟨_, hstep, vblankEvent_frame { s with agenda := rest }, chanAt_of_resumeAll (vblankEvent_chans { s with agenda := rest })⟩
  case intr =>
    let u := State.withIrq { s with agenda := rest } fun r => { r with pgraphIntr := r.pgraphIntr &&& ~~~v }
    have hstore : mmioStore s.par.mmioMap.pgraphIntr v { s with agenda := rest } = resumeIdle u := by
      obtain ⟨-, -, hreg, -⟩ := mmioReg_of_mapOk hm
      simp only [mmioStore, hreg]
      rfl
    have halign := mapOk_aligned hm s.par.mmioMap.pgraphIntr (by simp [mapOffsets])
    refine ⟨resumeIdle u, ?_, (resumeIdle_frame u).trans rfl, chanAt_resumeIdle u⟩
    rw [step, cycle, ha, ← hstore]
    exact hostMmioWrite_aligned (s := { s with agenda := rest }) halign

/-- Settles O15: the map names the register of each offset, and the access is that register's. -/
theorem hostAccesses : Obligations.HostAccesses := by
  refine ⟨fun v s => ⟨fun hm => ?named, fun a ha halign => ?plain, fun a bytes h => hostMmio_refused h, fun a data rest ha hlen => ?memory⟩,
    by decide, rfl⟩
  case named =>
    have halign := mapOk_aligned hm
    simp only [mapOffsets, List.forall_mem_cons] at halign
    obtain ⟨a1, a2, a3, a4, a5, a6, a7, a8, a9, -⟩ := halign
    obtain ⟨r1, r2, r3, r4, r5, r6, r7, r8, r9⟩ := mmioReg_of_mapOk hm
    have hwindow := mapOk_window hm
    have hreg := mmioReg_window hm
    exact ⟨hostMmioWrite_store a1 (by simp only [mmioStore, r1]),
      hostMmioWrite_store a2 (by simp only [mmioStore, r2, State.withIrq]),
      hostMmioWrite_store a6 (by simp only [mmioStore, r6, State.withIrq]),
      hostMmioWrite_store a7 (by simp only [mmioStore, r7, State.withIrq]),
      hostMmioWrite_store a8 (by simp only [mmioStore, r8, State.withIrq]),
      hostMmioWrite_store a4 (by simp only [mmioStore, r4]),
      hostMmioWrite_store a5 (by simp only [mmioStore, r5]),
      hostMmioWrite_store a9 (by simp only [mmioStore, r9]),
      fun ch => ⟨_, hostMmioWrite_store (hwindow ch).1 (by simp only [mmioStore, (hreg ch).1]; rfl), rfl, setsAt_bankSet⟩,
      fun ch => ⟨_, hostMmioWrite_store (hwindow ch).2 (by simp only [mmioStore, (hreg ch).2]; rfl), rfl, setsAt_bankSet⟩,
      hostMmioRead_value a1 (by simp only [mmioValue, r1]),
      hostMmioRead_value a2 (by simp only [mmioValue, r2]),
      hostMmioRead_value a3 (by simp only [mmioValue, r3]),
      hostMmioRead_value a6 (by simp only [mmioValue, r6]),
      hostMmioRead_value a7 (by simp only [mmioValue, r7]),
      hostMmioRead_value a8 (by simp only [mmioValue, r8]),
      hostMmioRead_value a4 (by simp only [mmioValue, r4]),
      hostMmioRead_value a5 (by simp only [mmioValue, r5]),
      hostMmioRead_value a9 (by simp only [mmioValue, r9]),
      fun ch => hostMmioRead_value (hwindow ch).1 (by simp only [mmioValue, (hreg ch).1]),
      fun ch => hostMmioRead_value (hwindow ch).2 (by simp only [mmioValue, (hreg ch).2])⟩
  case plain =>
    have hreg := mmioReg_plain ha
    have hbase : s.par.mmioBase + (a - s.par.mmioBase) = a := (mmioOffset_eq_iff.mp rfl).symm
    have hwrite := hostMmioWrite_store (s := s) (v := v) halign (by simp only [mmioStore, hreg]; rfl)
    rw [hbase] at hwrite
    refine ⟨_, hwrite, rfl, setsAt_bankSet, ?_⟩
    have hread := hostMmioRead_value (w := v) (s := { s with mmio := bankSet 0 s.mmio (a - s.par.mmioBase).toNat v }) halign
      (by simp only [mmioValue, hreg, bankGet_set_same])
    rw [← hread]
    exact congrArg (hostMmioRead · 4 _) hbase.symm
  case memory =>
    refine ⟨hostMemWrite a data { s with agenda := rest }, by rw [step, cycle, ha]; rfl, rfl, fun k hk hin => ?_, fun c hc => ?_⟩
    · exact hostWriteBytes_byte _ _ _ _ hlen hk hin
    · exact hostWriteBytes_other _ _ _ _ hc

end
end

section
/-! PROOFS. The memory frame of every instruction (R583, R586). -/

namespace Sys2Proof.Machine
open Sys2Proof

/-! ### Instructions that do not draw -/

theorem ReadsOnly.memoryKept {b b' : Bus} (h : ReadsOnly b b') : memoryKept b b' := fun a => by rw [memByte, memByte, h.1]

/-- A diagnostic leaves memory (R620). -/
theorem raiseWhen_memoryKept (c : Prop) [Decidable c] (s : State) (k : DiagKind) : memoryKept s.bus (if c then s.raise k else s).bus := by
  split <;> exact fun _ => rfl

theorem bindHandle_memoryKept (s : State) (subc : BitVec 3) (handle : Word) : memoryKept s.bus (s.bindHandle subc handle).bus := by
  unfold State.bindHandle
  split <;> exact fun _ => rfl

/-- An instruction that does not draw leaves memory. -/
theorem exec_memoryKept {i : Instr} (s : State) (hi : drawsPixels i = false) :
    Leads (fun t => memoryKept s.bus t.bus) (exec i s) := by
  cases i with
  | clearSurface | vertex3f2 | vertex4f3 | vertexData2fM | vertexData2s | vertexData4ub | vertexData4sM | vertexData4fM
  | arrayElement16 | arrayElement32 | drawArrays | inlineArray => cases hi
  | noOperation | transformConstant | specularFogFactor =>
    exact leads_ite (fun _ => leads_next fun _ => rfl) fun _ => leads_next fun _ => rfl
  | combinerControl d => exact leads_next (raiseWhen_memoryKept _ { s with cmb := { s.cmb with stages := stageCount d } } _)
  | beginEnd d =>
    refine leads_ite (fun _ => leads_next fun _ => rfl) fun _ => leads_next ?_
    exact raiseWhen_memoryKept _ { s with prim := { s.prim with primType := beginType d, vcount := 0, rsel := selectShader s } } _
  | bindObject handle => exact leads_next (bindHandle_memoryKept s _ handle)
  | vpNop | vpMov | vpMul | vpAdd | vpMad | vpDp3 | vpDph | vpDp4 | vpDst | vpMin | vpMax | vpSlt | vpSge | vpArl
  | vpSNop | vpSImv | vpSRcp | vpSRcc | vpSRsq | vpSExp | vpSLog | vpSLit =>
    refine leads_ofExcept fun t ht => ?_
    obtain ⟨r, hr, rfl⟩ := except_map_ok ht
    exact (vpExecute_result _ _ _ _ _ _ _ hr).2.memoryKept
  | _ => exact leads_next fun _ => rfl

/-! ### Instructions that draw -/

theorem memoryKeptOutside.trans {t : Surface} {a b c : Bus} (h : memoryKeptOutside t a b) (h' : memoryKeptOutside t b c) :
    memoryKeptOutside t a c := fun x hx => (h' x hx).trans (h x hx)

theorem memoryKept.outside {b b' : Bus} (h : memoryKept b b') (t : Surface) : memoryKeptOutside t b b' := fun a _ => h a

theorem emit_memory {vtx : Bank Vec4} {s t : State} (h : emit vtx s = .ok t) : memoryKeptOutside s.surf s.bus t.bus :=
  (emit_drawsIn vtx s h).2

/-- A store in the persistent vertex, and its emission where it is due. -/
theorem emitWhen_memory (c : Bool) (s : State) (pvtx : Bank Vec4) :
    Leads (fun t => memoryKeptOutside s.surf s.bus t.bus) (emitWhen c { s with pvtx := pvtx }) :=
  leads_ite (fun _ => leads_ofExcept fun _ ht => emit_memory (s := { s with pvtx := pvtx }) ht) fun _ => leads_next fun _ _ => rfl

theorem emitIndexed_memory {n : Word} {s t : State} (h : emitIndexed n s = .ok t) : memoryKeptOutside s.surf s.bus t.bus :=
  ((fetchVertex_readsOnly (who s) s.va s.pvtx n s.bus).memoryKept.outside s.surf).trans (emit_memory h)

theorem emitIndexed_surf {n : Word} {s t : State} (h : emitIndexed n s = .ok t) : t.surf = s.surf := by
  rw [emit_frame _ _ h]

theorem emitRange_memory {start : Word} {count : Nat} {s t : State} (h : emitRange start count s = .ok t) :
    memoryKeptOutside s.surf s.bus t.bus := by
  induction count generalizing start s with
  | zero => cases h; exact fun _ _ => rfl
  | succ count ih =>
    obtain ⟨u, hu, h⟩ := except_bind_ok h
    exact (emitIndexed_memory hu).trans (emitIndexed_surf hu ▸ ih h)

theorem execInlineArray_memory (d : Word) (s : State) :
    Leads (fun t => memoryKeptOutside s.surf s.bus t.bus) (execInlineArray d s) := by
  unfold execInlineArray
  refine leads_ite (fun _ => leads_next fun _ _ => rfl) fun _ => leads_ite (fun _ => leads_ofExcept fun t ht => ?_) fun _ =>
    leads_next fun _ _ => rfl
  obtain ⟨u, hu, rfl⟩ := except_map_ok ht
  have hread := inlineVertex_readsOnly (who s) (inlinePush s.va d) s.pvtx s.bus
  exact (hread.memoryKept.outside s.surf).trans (emit_memory hu)

/-- The bytes that a clear writes are the render target's. -/
theorem clearedByte.target {s : State} {d a : Word} (h : clearedByte s d a) : targetByte s.surf a := by
  obtain ⟨x, y, ⟨-, -, -, -, hin⟩, ⟨-, -, hbyte⟩ | ⟨-, -, hbyte⟩⟩ := h
  · exact ⟨x, y, hin, .inl hbyte⟩
  · exact ⟨x, y, hin, .inr hbyte⟩

/-- An instruction that draws leaves memory outside the render target. -/
theorem exec_memoryKeptOutside {i : Instr} (s : State) (hi : drawsPixels i = true) :
    Leads (fun t => memoryKeptOutside s.surf s.bus t.bus) (exec i s) := by
  cases i with
  | clearSurface d =>
    obtain ⟨u, hu, -, hkept⟩ := clearSurfaceCompletes d s
    rw [hu]
    exact leads_next fun a ha => hkept a fun hc => ha hc.target
  | vertex3f2 | vertex4f3 => exact emitWhen_memory true s _
  | vertexData4fM | vertexData2s | vertexData4ub => exact emitWhen_memory _ s _
  | vertexData2fM | vertexData4sM => exact leads_ite (fun _ => emitWhen_memory false s _) fun _ => emitWhen_memory _ s _
  | arrayElement16 d =>
    refine leads_ofExcept fun t ht => ?_
    obtain ⟨u, hu, ht⟩ := except_bind_ok ht
    exact (emitIndexed_memory hu).trans (emitIndexed_surf hu ▸ emitIndexed_memory ht)
  | arrayElement32 => exact leads_ofExcept fun _ ht => emitIndexed_memory ht
  | drawArrays => exact leads_ofExcept fun _ ht => emitRange_memory ht
  | inlineArray d => exact execInlineArray_memory d s
  | _ => cases hi

end Sys2Proof.Machine

section
open Sys2Proof Sys2Proof.Machine

/-- Settles O29: the instructions that do not draw only read, and what the others draw stays inside the render target. -/
theorem storesStayInRenderTarget : Obligations.StoresStayInRenderTarget := fun _ s t ht =>
  ⟨fun hi => exec_memoryKept s hi t ht, fun hi => exec_memoryKeptOutside s hi t ht⟩

end
end

section
/-! PROOFS. The enumerations of the pixel stage: blending, comparisons, logic and stencil operations (R550, R554, R560, R561, R570). -/

namespace Sys2Proof.Machine
open Sys2Proof

/-! ### Blending (R560, R561) -/

/-- The byte of an ARGB8 word that holds the channel (R14). -/
def Chan.index : Chan → Nat
  | .b => 0
  | .g => 1
  | .r => 2
  | .a => 3

theorem Chan.of_eq_byte (c : Chan) (w : Word) : c.of w = (byteOf w c.index).toNat := by cases c <;> rfl

theorem Chan.index_eq_three {c : Chan} : c.index = 3 ↔ c = .a := by cases c <;> decide

/-- A byte of a word by division. -/
theorem byte_div (w : Word) (n : Nat) : w.toNat / 256 ^ n % 256 = (byteOf w n).toNat := by
  rw [byteOf_toNat, Nat.pow_mul]
  rfl

/-- A word is its four bytes. -/
theorem eq_of_bytes {w v : Word} (h : ∀ n, n < 4 → (byteOf w n).toNat = (byteOf v n).toNat) : w = v := by
  have h0 := h 0 (by decide)
  have h1 := h 1 (by decide)
  have h2 := h 2 (by decide)
  have h3 := h 3 (by decide)
  simp only [byteOf_toNat] at h0 h1 h2 h3
  apply BitVec.eq_of_toNat_eq
  omega

/-- The factor of a channel is that of its byte (R561). -/
theorem factorBy_eq (k : FactorFn) (c : Chan) (src dst const : Word) : factorBy k c src dst const = factorOf k c.index src dst const := by
  have halpha (w : Word) : Chan.a.of w = (byteOf w 3).toNat := rfl
  cases k <;> simp only [factorBy, factorOf, byte_div, halpha, Chan.of_eq_byte c, Chan.index_eq_three]

theorem blendFactor_eq {e : Enums} {w : Word} {k : FactorFn} (h : e.factor.lookup w = some k) (c : Chan) (src dst const : Word)
    (value : Nat) : scaled value (blendFactor e w c src dst const) = .ok (value * factorOf k c.index src dst const / 255) := by
  rw [blendFactor, member_ok.mpr h, ← factorBy_eq]
  rfl

/-- A blend answers the colour of its four channels. -/
theorem blendsTo_of_channels {e : Enums} {p : PixelState} {src dst : Word} {f : Nat → Nat} (hf : ∀ n, f n < 256)
    (h : ∀ c : Chan, blendChannel e p c src dst = .ok (f c.index)) : blendsTo e p src dst f := by
  refine ⟨pack8 (BitVec.ofNat 8 (f 3)) (BitVec.ofNat 8 (f 2)) (BitVec.ofNat 8 (f 1)) (BitVec.ofNat 8 (f 0)), ?_, fun n hn => ?_⟩
  · rw [blend, h, h, h, h]
    rfl
  · obtain ⟨h3, h2, h1, h0⟩ := byteOf_pack8 (BitVec.ofNat 8 (f 3)) (BitVec.ofNat 8 (f 2)) (BitVec.ofNat 8 (f 1)) (BitVec.ofNat 8 (f 0))
    have hval (k : Nat) : (BitVec.ofNat 8 (f k)).toNat = f k := by rw [BitVec.toNat_ofNat, Nat.mod_eq_of_lt (hf k)]
    interval_cases n
    · rw [h0, hval]
    · rw [h1, hval]
    · rw [h2, hval]
    · rw [h3, hval]

/-- The part that a word of ARGB8 channels has in a blend, scaled by the factor `k` (R560). -/
def blendPart (k : FactorFn) (w src dst const : Word) (n : Nat) : Nat := (byteOf w n).toNat * factorOf k n src dst const / 255

theorem factorOf_le (k : FactorFn) (n : Nat) (src dst const : Word) : factorOf k n src dst const ≤ 255 := by
  have hbyte (w : Word) (m : Nat) : w.toNat / 256 ^ m % 256 ≤ 255 := by omega
  cases k with
  | zero => exact Nat.zero_le _
  | one => exact le_rfl
  | srcColor | srcAlpha | dstAlpha | dstColor | constantColor | constantAlpha => exact hbyte ..
  | oneMinusSrcColor | oneMinusSrcAlpha | oneMinusDstAlpha | oneMinusDstColor | oneMinusConstantColor | oneMinusConstantAlpha =>
    exact Nat.sub_le ..
  | srcAlphaSaturate =>
    unfold factorOf
    dsimp only
    split
    · exact le_rfl
    · exact (Nat.min_le_left ..).trans (hbyte ..)

theorem blendPart_le (k : FactorFn) (w src dst const : Word) (n : Nat) : blendPart k w src dst const n ≤ 255 := by
  have hbyte : (byteOf w n).toNat ≤ 255 := Nat.le_of_lt_succ (byteOf w n).isLt
  exact Nat.div_le_of_le_mul (Nat.mul_le_mul hbyte (factorOf_le k n src dst const))

section equations
variable {e : Enums} {p : PixelState} {f g : FactorFn} (hf : e.factor.lookup p.blendSfactor = some f)
  (hg : e.factor.lookup p.blendDfactor = some g) (src dst : Word)
include hf hg

theorem blend_add (h : e.equation.lookup p.blendEq = some .add) : blendsTo e p src dst fun n =>
    min (blendPart f src src dst p.blendColor n + blendPart g dst src dst p.blendColor n) 255 := by
  refine blendsTo_of_channels (fun n => by omega) fun c => ?_
  simp only [blendChannel, member_ok.mpr h, blendFactor_eq hf, blendFactor_eq hg, Chan.of_eq_byte]
  rfl

theorem blend_subtract (h : e.equation.lookup p.blendEq = some .subtract) : blendsTo e p src dst fun n =>
    blendPart f src src dst p.blendColor n - blendPart g dst src dst p.blendColor n := by
  refine blendsTo_of_channels (fun n => Nat.lt_succ_of_le ((Nat.sub_le ..).trans (blendPart_le ..))) fun c => ?_
  simp only [blendChannel, member_ok.mpr h, blendFactor_eq hf, blendFactor_eq hg, Chan.of_eq_byte]
  rfl

theorem blend_reverseSubtract (h : e.equation.lookup p.blendEq = some .reverseSubtract) : blendsTo e p src dst fun n =>
    blendPart g dst src dst p.blendColor n - blendPart f src src dst p.blendColor n := by
  refine blendsTo_of_channels (fun n => Nat.lt_succ_of_le ((Nat.sub_le ..).trans (blendPart_le ..))) fun c => ?_
  simp only [blendChannel, member_ok.mpr h, blendFactor_eq hf, blendFactor_eq hg, Chan.of_eq_byte]
  rfl

end equations

/-- MIN and MAX, whatever the factors (R560). -/
theorem blend_extremes {e : Enums} {p : PixelState} (src dst : Word) :
    (e.equation.lookup p.blendEq = some .min → blendsTo e p src dst fun n => min (byteOf src n).toNat (byteOf dst n).toNat) ∧
      (e.equation.lookup p.blendEq = some .max → blendsTo e p src dst fun n => max (byteOf src n).toNat (byteOf dst n).toNat) := by
  have hbyte (w : Word) (n : Nat) := (byteOf w n).isLt
  refine ⟨fun h => blendsTo_of_channels (fun n => lt_of_le_of_lt (Nat.min_le_left ..) (hbyte src n)) fun c => ?_,
    fun h => blendsTo_of_channels (fun n => Nat.max_lt.mpr ⟨hbyte src n, hbyte dst n⟩) fun c => ?_⟩ <;>
  · simp only [blendChannel, member_ok.mpr h, Chan.of_eq_byte]
    rfl

/-- FUNC_ADD with the factors ONE and ZERO gives the source (R560). -/
theorem blend_source {e : Enums} {p : PixelState} (hf : e.factor.lookup p.blendSfactor = some .one)
    (hg : e.factor.lookup p.blendDfactor = some .zero) (h : e.equation.lookup p.blendEq = some .add) (src dst : Word) :
    blend e p src dst = .ok src := by
  obtain ⟨w, hw, hbytes⟩ := blend_add hf hg src dst h
  rw [hw]
  refine congrArg _ (eq_of_bytes fun n hn => (hbytes n hn).trans ?_)
  have hone : blendPart .one src src dst p.blendColor n = (byteOf src n).toNat :=
    Nat.mul_div_cancel _ (show 0 < 255 by decide)
  have hzero : blendPart .zero dst src dst p.blendColor n = 0 := by rw [blendPart, factorOf, Nat.mul_zero, Nat.zero_div]
  dsimp only
  rw [hone, hzero, Nat.add_zero]
  exact Nat.min_eq_left (Nat.le_of_lt_succ (byteOf src n).isLt)

/-! ### Comparisons (R550) -/

/-- A comparison as a bit of its place in the enumeration. -/
theorem compareBy_testBit (k : CompareFn) (a b : Nat) :
    compareBy k a b = (compareCode k).testBit (if a < b then 0 else if a = b then 1 else 2) := by
  rcases lt_trichotomy a b with h | rfl | h
  · cases k <;> simp [compareBy, compareCode, h, h.le, h.ne, h.not_ge, h.not_gt, Nat.testBit]
  · cases k <;> simp [compareBy, compareCode, Nat.testBit]
  · cases k <;> simp [compareBy, compareCode, h, h.le, h.ne', h.not_ge, h.not_gt, Nat.testBit]

theorem compare_of_lookup {e : Enums} {f : Word} {k : CompareFn} (h : e.compare.lookup f = some k) (a b : Nat) :
    compare e f a b = .ok (compareBy k a b) := by
  rw [compare, member_ok.mpr h]
  rfl

theorem compare_of_none {e : Enums} {f : Word} (h : e.compare.lookup f = none) (a b : Nat) :
    compare e f a b = .error (.badEnum f) := by
  rw [compare, member_error.mpr ⟨h, rfl⟩]
  rfl

/-! ### Logic operations (R570) -/

/-- A logic operation as the truth table of its place in the enumeration. -/
theorem logicBy_testBit (k : LogicFn) (s d : Word) {n : Nat} (hn : n < 32) : (logicBy k s d).getLsbD n =
    (logicCode k).testBit (if s.getLsbD n then (if d.getLsbD n then 0 else 1) else if d.getLsbD n then 2 else 3) := by
  have hones : (0xFFFFFFFF : Word).getLsbD n = true := by
    rw [show (0xFFFFFFFF : Word) = BitVec.allOnes 32 from rfl, BitVec.getLsbD_allOnes, decide_eq_true hn]
  have hzeros : (0 : Word).getLsbD n = false := BitVec.getLsbD_zero
  cases k <;>
  · simp only [logicBy, BitVec.getLsbD_and, BitVec.getLsbD_or, BitVec.getLsbD_xor, BitVec.getLsbD_not, hones, hzeros, hn, decide_true,
      Bool.true_and]
    generalize s.getLsbD n = x
    generalize d.getLsbD n = y
    revert x y
    decide

/-! ### Stencil operations (R554) -/

/-- A stencil operation gives its value merged bit by bit through the write mask. -/
theorem stencilOp_gives {e : Enums} {p : PixelState} {op : Word} {st : BitVec 8} {k : StencilFn} {r : Nat}
    (hr : (stencilBy k p.stencilRef st).toNat = r) (h : e.stencil.lookup op = some k) :
    ∃ w, stencilOp e p op st = .ok w ∧
      ∀ n, n < 8 → w.getLsbD n = if p.stencilWriteMask.getLsbD n then r.testBit n else st.getLsbD n := by
  refine ⟨(st &&& ~~~p.stencilWriteMask) ||| (stencilBy k p.stencilRef st &&& p.stencilWriteMask), ?_, fun n hn => ?_⟩
  · rw [stencilOp, stencilRaw, member_ok.mpr h]
    rfl
  · rw [← hr]
    simp only [BitVec.getLsbD_or, BitVec.getLsbD_and, BitVec.getLsbD_not, hn, decide_true, Bool.true_and, BitVec.testBit_toNat]
    cases p.stencilWriteMask.getLsbD n <;> simp

theorem stencilIncr_toNat (ref st : BitVec 8) : (stencilBy .incr ref st).toNat = min (st.toNat + 1) 255 := by
  rw [show stencilBy .incr ref st = if st = 255 then 255 else st + 1 from rfl]
  split <;> bv_omega

theorem stencilDecr_toNat (ref st : BitVec 8) : (stencilBy .decr ref st).toNat = st.toNat - 1 := by
  rw [show stencilBy .decr ref st = if st = 0 then 0 else st - 1 from rfl]
  split <;> bv_omega

theorem stencilDecrWrap_toNat (ref st : BitVec 8) : (stencilBy .decrWrap ref st).toNat = (st.toNat + 255) % 256 := by
  rw [stencilBy, BitVec.toNat_sub, Nat.add_comm]
  rfl

/-! ### The default enumerations (R152) -/

theorem isMember_of_lookup {α : Type} {table : List (Word × α)} {w : Word} {k : α} (h : table.lookup w = some k) :
    isMember table w = true := by
  rw [isMember, h]
  rfl

/-- A member of an enumeration whose entries lie in a range lies in it. -/
theorem member_range {α : Type} {table : List (Word × α)} {lo hi : Nat}
    (hall : ∀ e ∈ table, lo ≤ e.1.toNat ∧ e.1.toNat ≤ hi) {w : Word} (h : isMember table w = true) : lo ≤ w.toNat ∧ w.toNat ≤ hi := by
  obtain ⟨e, he, hw⟩ := List.lookup_isSome_iff.mp h
  rw [beq_iff_eq.mp hw]
  exact hall e he

theorem compareInit_lookup {k : Nat} {f : Word} (hk : k < 8) (hf : f.toNat = 0x200 + k) :
    ∃ c, Enums.init.compare.lookup f = some c ∧ compareCode c = k := by
  obtain rfl : f = BitVec.ofNat 32 (0x200 + k) := BitVec.eq_of_toNat_eq (by rw [hf, BitVec.toNat_ofNat]; omega)
  interval_cases k <;> exact ⟨_, rfl, rfl⟩

theorem logicInit_lookup {k : Nat} {op : Word} (hk : k < 16) (hop : op.toNat = 0x1500 + k) :
    ∃ c, Enums.init.logic.lookup op = some c ∧ logicCode c = k := by
  obtain rfl : op = BitVec.ofNat 32 (0x1500 + k) := BitVec.eq_of_toNat_eq (by rw [hop, BitVec.toNat_ofNat]; omega)
  interval_cases k <;> exact ⟨_, rfl, rfl⟩

theorem compareInit_member (w : Word) : isMember Enums.init.compare w = true ↔ 0x200 ≤ w.toNat ∧ w.toNat ≤ 0x207 := by
  refine ⟨member_range (by decide), fun ⟨hlo, hhi⟩ => ?_⟩
  obtain ⟨c, hc, -⟩ := compareInit_lookup (k := w.toNat - 0x200) (f := w) (by omega) (by omega)
  exact isMember_of_lookup hc

theorem logicInit_member (w : Word) : isMember Enums.init.logic w = true ↔ 0x1500 ≤ w.toNat ∧ w.toNat ≤ 0x150F := by
  refine ⟨member_range (by decide), fun ⟨hlo, hhi⟩ => ?_⟩
  obtain ⟨c, hc, -⟩ := logicInit_lookup (k := w.toNat - 0x1500) (op := w) (by omega) (by omega)
  exact isMember_of_lookup hc

end Sys2Proof.Machine

section
open Sys2Proof Sys2Proof.Machine

/-- Settles O32: channel by channel from the equation's clause. -/
theorem blendEquations : Obligations.BlendEquations := by
  refine ⟨fun e p src dst f g => ?_, rfl, rfl⟩
  have hmin := (blend_extremes (e := e) (p := p) src dst).1
  have hmax := (blend_extremes (e := e) (p := p) src dst).2
  refine ⟨fun h hl => blend_add hl.1 hl.2 src dst h, fun h hl => blend_subtract hl.1 hl.2 src dst h,
    fun h hl => blend_reverseSubtract hl.1 hl.2 src dst h, fun h hl hone hzero => ?source, hmin, hmax, fun heq hl => ?completes⟩
  case source =>
    subst hone hzero
    exact blend_source hl.1 hl.2 h src dst
  case completes =>
    exact blend_completes heq (fun _ => ⟨isMember_of_lookup hl.1, isMember_of_lookup hl.2⟩) src dst

/-- Settles O33: each operation by its place in its enumeration, and the default enumerations by their entries. -/
theorem comparisonsAndOperations : Obligations.ComparisonsAndOperations := by
  refine ⟨fun e f a b => ⟨fun k h => ?compare, fun h => ?noCompare⟩, fun e op s d => ⟨fun k h => ?logic, fun h => ?noLogic⟩,
    fun e p op st => ?stencil, fun _ _ hk hf => compareInit_lookup hk hf, fun _ _ hk hop => logicInit_lookup hk hop,
    fun w => ⟨compareInit_member w, logicInit_member w⟩, rfl⟩
  case compare => rw [compare_of_lookup h, compareBy_testBit]
  case noCompare => exact compare_of_none h a b
  case logic =>
    refine ⟨logicBy k s d, ?_, fun n hn => logicBy_testBit k s d hn⟩
    rw [logicOp, member_ok.mpr h]
    rfl
  case noLogic => rw [logicOp, member_error.mpr ⟨h, rfl⟩]; rfl
  case stencil =>
    refine ⟨stencilOp_gives rfl, stencilOp_gives BitVec.toNat_not, stencilOp_gives rfl, stencilOp_gives rfl,
      stencilOp_gives (stencilIncr_toNat ..), stencilOp_gives (stencilDecr_toNat ..), stencilOp_gives rfl,
      stencilOp_gives (stencilDecrWrap_toNat ..), fun h => ?_⟩
    rw [stencilOp, stencilRaw, member_error.mpr ⟨h, rfl⟩]
    rfl

end
end

section
/-! PROOFS. The pixel's tests and its write-back (R211, R550 to R555, R580 to R586). -/

namespace Sys2Proof.Machine
open Sys2Proof

/-! ### The stored depth and stencil (R581) -/

/-- The depth and stencil of pixel (x, y) as they stand in memory. -/
def storedZs (d : Draw) (x y : Nat) (b : Bus) : Nat × BitVec 8 := unpackZeta d.surf.zetaFmt (zetaWord d x y b)

/-- What a pixel inside the clip rectangle reads first: the stored depth and stencil, and the bus after it. -/
def pixelStart (d : Draw) (x y : Nat) (b : Bus) : (Nat × BitVec 8) × Bus := readZs d x y (missingZeta d b)

section start
variable {d : Draw} {x y : Nat} {b : Bus}

theorem pixelStart_mem : (pixelStart d x y b).2.mem = b.mem :=
  ((missingZeta_readsOnly d b).trans (readZs_readsOnly d x y _)).1

theorem pixelStart_stored (hz : zetaUsed d.surf d.pix = true) : (pixelStart d x y b).1 = storedZs d x y b := by
  have hword : zetaWord d x y (missingZeta d b) = zetaWord d x y b := memReadWord_of_mem_eq (missingZeta_readsOnly d b).1
  rw [storedZs, ← hword, pixelStart, readZs, if_pos hz]
  rfl

/-- Where every test that is on has its buffer, and the buffer's word lies in memory, the start raises nothing. -/
theorem pixelStart_diag (hbuffer : d.pix.depthTestEn = true ∨ d.pix.stencilTestEn = true → zetaOk d.surf = true)
    (hrange : zetaUsed d.surf d.pix = true → inRange d.who (zetaBpp d.surf.zetaFmt) (zetaAddr d.surf x y)) :
    (pixelStart d x y b).2.diag = b.diag := by
  have hpresent : ¬ ((d.pix.depthTestEn || d.pix.stencilTestEn) && !zetaOk d.surf) = true := by
    simpa using fun h => hbuffer h
  rw [pixelStart, missingZeta, if_neg hpresent, readZs]
  split
  case isTrue hz =>
    have hbus := memRead_bus d.who (zetaBpp d.surf.zetaFmt) (zetaAddr d.surf x y) b
    rw [readDiags_inRange (hrange hz), List.append_nil] at hbus
    exact congrArg Bus.diag hbus
  case isFalse => rfl

theorem zetaFmt_of_ok {t : Surface} (h : zetaOk t = true) : t.zetaFmt = 1 ∨ t.zetaFmt = 2 := by
  simp only [zetaOk, Bool.and_eq_true, Bool.or_eq_true, decide_eq_true_eq] at h
  exact h.1

theorem storedZs_z16 (h : d.surf.zetaFmt = 1) : (storedZs d x y b).1 = (zetaWord d x y b).toNat := by
  have hlow : (storedZs d x y b).1 = (zetaWord d x y b).toNat % 2 ^ 16 := by
    rw [storedZs, unpackZeta, if_pos h, extractLsb'_toNat_div, pow_zero, Nat.div_one]
  rw [hlow, Nat.mod_eq_of_lt (zetaWord_lt_of_z16 h)]

theorem storedZs_z24s8 (h : d.surf.zetaFmt = 2) :
    (storedZs d x y b).1 = (zetaWord d x y b).toNat / 256 ∧ (storedZs d x y b).2.toNat = (zetaWord d x y b).toNat % 256 := by
  have hfmt : ¬ d.surf.zetaFmt = 1 := by rw [h]; decide
  rw [storedZs, unpackZeta, if_neg hfmt, extractLsb'_toNat_div, extractLsb'_toNat_div, pow_zero, Nat.div_one,
    div_mod_top (zetaWord d x y b) (lo := 8) (len := 24) rfl]
  exact ⟨rfl, rfl⟩

theorem depthOf_le (fmt : BitVec 4) (z : Word) : depthOf fmt z ≤ if fmt = 1 then 0xFFFF else 0xFFFFFF := by
  unfold depthOf fFloorClamp
  generalize (if fmt = 1 then 0xFFFF else 0xFFFFFF) = hi
  split_ifs
  · exact Nat.zero_le _
  · exact Nat.zero_le _
  · exact le_rfl
  · exact Nat.min_le_left ..

end start

/-! ### Write-back -/

/-- Bytes written back as they were read leave memory, in range or not (R83, R84). -/
theorem memWrite_memRead {q : Who} {n : Nat} {a : Word} {b b' : Bus} (h : memoryKept b b') :
    memoryKept b (memWrite q n a (memRead q n a b).1 b') := by
  induction n generalizing a b b' with
  | zero => exact h
  | succ n ih =>
    have hfirst : BitVec.ofNat 8 (memRead q (n + 1) a b).1 = (readByte q a b).1 := by
      apply BitVec.eq_of_toNat_eq
      rw [memRead, BitVec.toNat_ofNat]
      have hlt := (readByte q a b).1.isLt
      omega
    have hrest : (memRead q (n + 1) a b).1 / 256 = (memRead q n (a + 1) (readByte q a b).2).1 := by
      rw [memRead]
      have hlt := (readByte q a b).1.isLt
      omega
    have hmem := (readByte_readsOnly q a b).1
    rw [memWrite, hfirst, hrest]
    have hwritten : memoryKept (readByte q a b).2 (writeByte q a (readByte q a b).1 b') := by
      intro c
      rw [memByte_writeByte, hmem]
      split
      case isTrue hc =>
        obtain ⟨rfl, hin⟩ := hc
        rw [readByte_in b hin]
      case isFalse => exact h c
    intro c
    rw [ih hwritten c, hmem]

section writeBack
variable {d : Draw} {x y zv : Nat} {sv : BitVec 8} {b b' : Bus}

theorem writeZs_other {a : Word} (h : ¬ inBytes a (zetaAddr d.surf x y) (zetaBpp d.surf.zetaFmt)) :
    memByte (writeZs d x y zv sv b).mem a = memByte b.mem a :=
  memByte_memWrite_other _ _ _ _ _ _ fun k hk hc => h ⟨k, hk, hc⟩

/-- The zeta word after the write-back of a depth and stencil that fit it. -/
theorem zetaWord_writeZs (hrange : inRange d.who (zetaBpp d.surf.zetaFmt) (zetaAddr d.surf x y))
    (hfit : packZeta d.surf.zetaFmt zv sv < 256 ^ zetaBpp d.surf.zetaFmt) :
    (zetaWord d x y (writeZs d x y zv sv b)).toNat = packZeta d.surf.zetaFmt zv sv := by
  have hle := zetaBpp_le d.surf.zetaFmt
  rw [zetaWord, memReadWord_toNat hle, writeZs, memRead_memWrite _ _ _ _ _ (by omega) hrange, Nat.mod_eq_of_lt hfit]

theorem packZeta_z16 (h : d.surf.zetaFmt = 1) : packZeta d.surf.zetaFmt zv sv = zv := if_pos h

theorem packZeta_z24s8 (h : d.surf.zetaFmt = 2) : packZeta d.surf.zetaFmt zv sv = zv * 256 + sv.toNat :=
  if_neg (by rw [h]; decide)

theorem zetaWord_writeZs_z16 (hfmt : d.surf.zetaFmt = 1) (hrange : inRange d.who (zetaBpp d.surf.zetaFmt) (zetaAddr d.surf x y))
    (hfit : zv < 2 ^ 16) : (zetaWord d x y (writeZs d x y zv sv b)).toNat = zv := by
  have hsize : 256 ^ zetaBpp d.surf.zetaFmt = 2 ^ 16 := by rw [hfmt]; decide
  rw [zetaWord_writeZs hrange (by rw [packZeta_z16 hfmt, hsize]; exact hfit), packZeta_z16 hfmt]

theorem zetaWord_writeZs_z24s8 (hfmt : d.surf.zetaFmt = 2)
    (hrange : inRange d.who (zetaBpp d.surf.zetaFmt) (zetaAddr d.surf x y)) (hfit : zv < 2 ^ 24) :
    (zetaWord d x y (writeZs d x y zv sv b)).toNat = zv * 256 + sv.toNat := by
  have hsize : 256 ^ zetaBpp d.surf.zetaFmt = 2 ^ 32 := by rw [hfmt]; decide
  rw [zetaWord_writeZs hrange (by rw [packZeta_z24s8 hfmt, hsize]; omega), packZeta_z24s8 hfmt]

/-- The stored depth written back with the stored stencil, or to a buffer that has none, leaves memory. -/
theorem writeZs_stored (hm : b'.mem = b.mem) (hok : zetaOk d.surf = true) (hsame : d.surf.zetaFmt = 1 ∨ sv = (storedZs d x y b).2) :
    memoryKept b (writeZs d x y (storedZs d x y b).1 sv b') := by
  have hvalue : packZeta d.surf.zetaFmt (storedZs d x y b).1 sv = (memRead d.who (zetaBpp d.surf.zetaFmt) (zetaAddr d.surf x y) b).1 := by
    rw [← memReadWord_toNat (zetaBpp_le _), ← zetaWord]
    rcases zetaFmt_of_ok hok with hfmt | hfmt
    · rw [packZeta_z16 hfmt, storedZs_z16 hfmt]
    · obtain rfl := hsame.resolve_left (by rw [hfmt]; decide)
      obtain ⟨hdepth, hstencil⟩ := storedZs_z24s8 (x := x) (y := y) (b := b) hfmt
      rw [packZeta_z24s8 hfmt, hdepth, hstencil, Nat.mul_comm, Nat.div_add_mod]
  rw [writeZs, hvalue]
  exact memWrite_memRead fun a => by rw [hm]

end writeBack

/-! ### A pixel that fails a test -/

section tests
variable {d : Draw} {x y : Nat} {z src : Word} {b : Bus}

theorem byteOf_three (w : Word) : byteOf w 3 = wordBits w 31 24 := (wordBits_eq_extractLsb' w 31 24).symm

/-- A pixel inside the clip rectangle of a supported colour buffer. -/
theorem pixel_reached (hin : inClip d.surf x y = true) (hcolor : colorOk d.surf = true) :
    pixel d x y z src b = (alphaTest d.enums d.pix src).bind fun alphaPassed =>
      if alphaPassed then
        pixelTests d x y (depthOf d.surf.zetaFmt z) (pixelStart d x y b).1.1 (pixelStart d x y b).1.2 src (pixelStart d x y b).2
      else .ok (pixelStart d x y b).2 := by
  rw [pixel, hin, hcolor]
  rfl

theorem alphaTest_passed (h : d.pix.alphaTestEn = true →
    compare d.enums d.pix.alphaFunc (wordBits src 31 24).toNat d.pix.alphaRef.toNat = .ok true) :
    alphaTest d.enums d.pix src = .ok true := by
  rw [alphaTest, byteOf_three]
  split
  case isTrue hen => exact h hen
  case isFalse => rfl

/-- The pixel after a passed alpha test. -/
theorem pixel_tested (hin : inClip d.surf x y = true) (hcolor : colorOk d.surf = true)
    (halpha : alphaTest d.enums d.pix src = .ok true) :
    pixel d x y z src b =
      pixelTests d x y (depthOf d.surf.zetaFmt z) (pixelStart d x y b).1.1 (pixelStart d x y b).1.2 src (pixelStart d x y b).2 := by
  rw [pixel_reached hin hcolor, halpha]
  rfl

/-- What does not reach a supported colour buffer leaves memory. -/
theorem pixel_keeps (h : inClip d.surf x y = true → colorOk d.surf = true → ∃ b', pixel d x y z src b = .ok b' ∧ memoryKept b b') :
    ∃ b', pixel d x y z src b = .ok b' ∧ memoryKept b b' := by
  cases hin : inClip d.surf x y with
  | false => exact ⟨b, pixel_outside d x y z src b hin, fun _ => rfl⟩
  | true =>
    cases hcolor : colorOk d.surf with
    | false => exact ⟨raise d.who .unsupportedSurface b, by rw [pixel, hin, hcolor]; rfl, fun _ => rfl⟩
    | true => exact h hin hcolor

theorem pixelTests_stencilFailed {zi zd : Nat} {sd st : BitVec 8} (h : stencilTest d.enums d.surf d.pix sd = .ok false)
    (hst : stencilOp d.enums d.pix d.pix.stencilOpFail sd = .ok st) :
    pixelTests d x y zi zd sd src b = .ok (writeZs d x y zd st b) := by
  rw [pixelTests, h, hst]
  rfl

theorem pixelTests_depthFailed {zi zd : Nat} {sd st : BitVec 8} (h : stencilTest d.enums d.surf d.pix sd = .ok true)
    (hdepth : depthTest d.enums d.surf d.pix zi zd = .ok false)
    (hst : stencilAfter d.enums d.pix d.pix.stencilOpZfail sd = .ok st) :
    pixelTests d x y zi zd sd src b = .ok (writeZs d x y zd st b) := by
  rw [pixelTests, h, hst]
  simp only [Except.bind, if_true, hdepth]
  rfl

/-- The stencil operation on the stored stencil is its value merged through the write mask (R554). -/
theorem stencilOp_merged {e : Enums} {p : PixelState} {op : Word} {sd r : BitVec 8} (h : stencilRaw e op p.stencilRef sd = .ok r) :
    stencilOp e p op sd = .ok (stencilMerged p sd r) := by
  rw [stencilOp, h]
  rfl

end tests

/-- The pixel fails: its zeta word is written back with the stored depth and the stencil `st`. -/
def Fails (d : Draw) (x y : Nat) (z src : Word) (b : Bus) (st : BitVec 8) : Prop :=
  inClip d.surf x y = true → colorOk d.surf = true →
    pixel d x y z src b = .ok (writeZs d x y (storedZs d x y b).1 st (pixelStart d x y b).2)

section fails
variable {d : Draw} {x y : Nat} {z src : Word} {b : Bus} {st : BitVec 8}

/-- A failure that leaves the stencil, or has none to write, leaves memory. -/
theorem Fails.keeps (h : Fails d x y z src b st) (hok : zetaOk d.surf = true)
    (hsame : d.surf.zetaFmt = 1 ∨ st = (storedZs d x y b).2) : ∃ b', pixel d x y z src b = .ok b' ∧ memoryKept b b' :=
  pixel_keeps fun hin hcolor => ⟨_, h hin hcolor, writeZs_stored pixelStart_mem hok hsame⟩

/-- A failure on a Z24S8 buffer stores the stencil alone. -/
theorem Fails.stores (h : Fails d x y z src b st) (hfmt : d.surf.zetaFmt = 2) (hin : inClip d.surf x y = true)
    (hcolor : colorOk d.surf = true) (hrange : inRange d.who 4 (zetaAddr d.surf x y)) :
    ∃ b', pixel d x y z src b = .ok b' ∧
      (zetaWord d x y b').toNat = (zetaWord d x y b).toNat / 256 * 256 + st.toNat ∧
      ∀ a, ¬ inBytes a (zetaAddr d.surf x y) 4 → memByte b'.mem a = memByte b.mem a := by
  have hsize : zetaBpp d.surf.zetaFmt = 4 := by rw [hfmt]; decide
  obtain ⟨hdepth, -⟩ := storedZs_z24s8 (x := x) (y := y) (b := b) hfmt
  have hword := (zetaWord d x y b).isLt
  refine ⟨_, h hin hcolor, ?_, fun a ha => ?_⟩
  · rw [zetaWord_writeZs_z24s8 hfmt (hsize ▸ hrange) (by omega), hdepth]
  · rw [writeZs_other (hsize ▸ ha), pixelStart_mem]

section made
variable (halpha : alphaTest d.enums d.pix src = .ok true) (hz : zetaUsed d.surf d.pix = true)
include halpha hz

theorem fails_stencil (hs : stencilTest d.enums d.surf d.pix (storedZs d x y b).2 = .ok false)
    (hst : stencilOp d.enums d.pix d.pix.stencilOpFail (storedZs d x y b).2 = .ok st) : Fails d x y z src b st := by
  intro hin hcolor
  rw [pixel_tested hin hcolor halpha, pixelStart_stored hz]
  exact pixelTests_stencilFailed hs hst

theorem fails_depth (hs : stencilTest d.enums d.surf d.pix (storedZs d x y b).2 = .ok true)
    (hdepth : depthTest d.enums d.surf d.pix (depthOf d.surf.zetaFmt z) (storedZs d x y b).1 = .ok false)
    (hst : stencilAfter d.enums d.pix d.pix.stencilOpZfail (storedZs d x y b).2 = .ok st) : Fails d x y z src b st := by
  intro hin hcolor
  rw [pixel_tested hin hcolor halpha, pixelStart_stored hz]
  exact pixelTests_depthFailed hs hdepth hst

end made
end fails

end Sys2Proof.Machine

section
open Sys2Proof Sys2Proof.Machine

/-- Settles O30: a pixel that fails the alpha test has only read; one that fails a later test writes the stored depth back, with the stored
stencil where the stencil test is off and the operation's result where it is on. -/
theorem failedPixelWrites : Obligations.FailedPixelWrites := by
  intro d x y z src b zs cmp raw cmpS cmpZ keeps stores
  refine ⟨fun hen hfail => ?alpha, fun halpha hok => ?tests⟩
  case alpha =>
    have htest : alphaTest d.enums d.pix src = .ok false := by rw [alphaTest, if_pos hen, byteOf_three]; exact hfail
    refine pixel_keeps fun hin hcolor => ⟨(pixelStart d x y b).2, ?_, fun a => by rw [pixelStart_mem]⟩
    rw [pixel_reached hin hcolor, htest]
    rfl
  case tests =>
    have halpha := alphaTest_passed halpha
    have hused (hen : (d.pix.depthTestEn || d.pix.stencilTestEn) = true) : zetaUsed d.surf d.pix = true := by rw [zetaUsed, hok, hen]; rfl
    have hstencil {r : Bool} (hen : d.pix.stencilTestEn = true) (h : cmpS = .ok r) :
        stencilTest d.enums d.surf d.pix zs.2 = .ok r := by
      rw [stencilTest, hused (by rw [hen, Bool.or_true]), hen]
      exact h
    have hdepth {r : Bool} (hen : d.pix.depthTestEn = true) (h : cmpZ = .ok r) :
        depthTest d.enums d.surf d.pix (depthOf d.surf.zetaFmt z) zs.1 = .ok r := by
      rw [depthTest, hused (by rw [hen, Bool.true_or]), hen]
      exact h
    refine ⟨fun hoff hen hfail => ?depthOnly, fun hen hfail r hr => ?stencil, fun hsen hpass hden hfail r hr => ?depth⟩
    case depthOnly =>
      have hs : stencilTest d.enums d.surf d.pix zs.2 = .ok true := by rw [stencilTest, hoff, Bool.and_false]; rfl
      have hst : stencilAfter d.enums d.pix d.pix.stencilOpZfail zs.2 = .ok zs.2 := by rw [stencilAfter, hoff]; rfl
      exact (fails_depth halpha (hused (by rw [hen, Bool.true_or])) hs (hdepth hen hfail) hst).keeps hok (.inr rfl)
    case stencil =>
      have hfails := fails_stencil (x := x) (y := y) (z := z) (b := b) halpha (hused (by rw [hen, Bool.or_true])) (hstencil hen hfail)
        (stencilOp_merged hr)
      exact ⟨fun hfmt => hfails.keeps hok (.inl hfmt), hfails.stores⟩
    case depth =>
      have hst : stencilAfter d.enums d.pix d.pix.stencilOpZfail zs.2 = .ok (stencilMerged d.pix zs.2 r) := by
        rw [stencilAfter, if_pos hsen]
        exact stencilOp_merged hr
      have hfails := fails_depth halpha (hused (by rw [hden, Bool.true_or])) (hstencil hsen hpass) (hdepth hden hfail) hst
      exact ⟨fun hfmt => hfails.keeps hok (.inl hfmt), hfails.stores⟩

end
end

section
/-! PROOFS. A pixel whose tests pass: its colour, depth and stencil (R211, R550, R555, R582). -/

namespace Sys2Proof.Machine
open Sys2Proof

/-! ### The pixel that passes -/

/-- The colour `col` packed and merged into the colour word of pixel (x, y) through the channel mask (R211, R582). -/
def colorStored (d : Draw) (x y : Nat) (col : Word) : Bus → Bus :=
  mergeAt true d.who (colorBpp d.surf.colorFmt) (colorAddr d.surf x y) (packColor d.surf.colorFmt col)
    (chanMask d.surf.colorFmt d.pix.cmaskR d.pix.cmaskG d.pix.cmaskB d.pix.cmaskA)

/-- The bus after a pixel that passes with the colour `col`, the depth `zv` and the stencil `sv`. -/
def pixelStored (d : Draw) (x y : Nat) (col : Word) (zv : Nat) (sv : BitVec 8) (b : Bus) : Bus :=
  if zetaUsed d.surf d.pix then writeZs d x y zv sv (colorStored d x y col b) else colorStored d x y col b

section passes
variable {d : Draw} {x y : Nat} {z src col : Word} {b : Bus}

theorem shadeResult_eq {e : Enums} {p : PixelState} {dst : Word} (h : shadesTo e p src dst col) :
    shadeResult e p src dst = .ok col := by
  obtain ⟨hlogic, hblend, hplain⟩ := h
  unfold shadeResult
  split_ifs with hl hb
  · exact hlogic hl
  · exact hblend (Bool.eq_false_of_not_eq_true hl) hb
  · rw [hplain (Bool.eq_false_of_not_eq_true hl) (Bool.eq_false_of_not_eq_true hb)]

theorem pixelPass_eq {zi zd : Nat} {sd st : BitVec 8} (hst : passStencil d.enums d.surf d.pix sd = .ok st)
    (hcol : shadesTo d.enums d.pix src (unpackColor d.surf.colorFmt (colorWord d x y b)) col) :
    pixelPass d x y zi zd sd src b = .ok (pixelStored d x y col (passDepth d.pix zi zd) st b) := by
  have hcolor : writeColor d x y src b = .ok (colorStored d x y col b) := by
    rw [writeColor]
    dsimp only
    rw [show (memReadWord d.who (colorBpp d.surf.colorFmt) (colorAddr d.surf x y) b).1 = colorWord d x y b from rfl,
      shadeResult_eq hcol]
    rfl
  rw [pixelPass, hst, hcolor]
  rfl

/-- The stencil that a pixel that passes writes: the on-zpass operation's result where the stencil test is on (R554). -/
theorem passStencil_eq {r : BitVec 8} (hz : zetaUsed d.surf d.pix = true)
    (hr : d.pix.stencilTestEn = true → stencilRaw d.enums d.pix.stencilOpZpass d.pix.stencilRef (storedZs d x y b).2 = .ok r) :
    passStencil d.enums d.surf d.pix (storedZs d x y b).2 =
      .ok (if d.pix.stencilTestEn then stencilMerged d.pix (storedZs d x y b).2 r else (storedZs d x y b).2) := by
  rw [passStencil, if_pos hz, stencilAfter]
  split
  case isTrue hen => exact stencilOp_merged (hr hen)
  case isFalse => rfl

/-- A pixel whose tests pass goes to write-back (R550). -/
theorem pixelTests_passed (h : testsPass d z src (storedZs d x y b).1 (storedZs d x y b).2) :
    pixelTests d x y (depthOf d.surf.zetaFmt z) (pixelStart d x y b).1.1 (pixelStart d x y b).1.2 src (pixelStart d x y b).2 =
      pixelPass d x y (depthOf d.surf.zetaFmt z) (pixelStart d x y b).1.1 (pixelStart d x y b).1.2 src (pixelStart d x y b).2 := by
  obtain ⟨-, hstencil, hdepth⟩ := h
  have hok (hz : zetaUsed d.surf d.pix = true) : zetaOk d.surf = true := (Bool.and_eq_true_iff.mp hz).1
  have hs : stencilTest d.enums d.surf d.pix (pixelStart d x y b).1.2 = .ok true := by
    unfold stencilTest
    split
    case isTrue hon =>
      obtain ⟨hz, hen⟩ := Bool.and_eq_true_iff.mp hon
      rw [pixelStart_stored hz]
      exact hstencil (hok hz) hen
    case isFalse => rfl
  have hd : depthTest d.enums d.surf d.pix (depthOf d.surf.zetaFmt z) (pixelStart d x y b).1.1 = .ok true := by
    unfold depthTest
    split
    case isTrue hon =>
      obtain ⟨hz, hen⟩ := Bool.and_eq_true_iff.mp hon
      rw [pixelStart_stored hz]
      exact hdepth (hok hz) hen
    case isFalse => rfl
  rw [pixelTests, hs]
  simp only [Except.bind, if_true, hd]

/-- A pixel whose tests pass stores its colour and, where the zeta buffer is in use, its depth and stencil. -/
theorem pixel_passes {r : BitVec 8} (hin : inClip d.surf x y = true) (hcolor : colorOk d.surf = true)
    (htests : testsPass d z src (storedZs d x y b).1 (storedZs d x y b).2)
    (hshade : shadesTo d.enums d.pix src (unpackColor d.surf.colorFmt (colorWord d x y b)) col)
    (hr : zetaUsed d.surf d.pix = true → d.pix.stencilTestEn = true →
      stencilRaw d.enums d.pix.stencilOpZpass d.pix.stencilRef (storedZs d x y b).2 = .ok r) :
    ∃ zv sv, pixel d x y z src b = .ok (pixelStored d x y col zv sv (pixelStart d x y b).2) ∧
      (zetaUsed d.surf d.pix = true → zv = passDepth d.pix (depthOf d.surf.zetaFmt z) (storedZs d x y b).1 ∧
        sv = if d.pix.stencilTestEn then stencilMerged d.pix (storedZs d x y b).2 r else (storedZs d x y b).2) := by
  have hword : colorWord d x y (pixelStart d x y b).2 = colorWord d x y b := memReadWord_of_mem_eq pixelStart_mem
  rw [pixel_tested hin hcolor (alphaTest_passed htests.1), pixelTests_passed htests]
  cases hz : zetaUsed d.surf d.pix with
  | true =>
    rw [pixelStart_stored hz]
    exact ⟨_, _, pixelPass_eq (passStencil_eq hz (hr hz)) (hword ▸ hshade), fun _ => ⟨rfl, rfl⟩⟩
  | false =>
    have hst : passStencil d.enums d.surf d.pix (pixelStart d x y b).1.2 = .ok (pixelStart d x y b).1.2 := by
      rw [passStencil, hz]
      rfl
    exact ⟨_, _, pixelPass_eq hst (hword ▸ hshade), fun h => nomatch h⟩

end passes

/-! ### What the write-back leaves -/

section stored
variable {d : Draw} {x y : Nat} {col : Word} {zv : Nat} {sv : BitVec 8} {b : Bus}

theorem pixelStored_used (hz : zetaUsed d.surf d.pix = true) :
    pixelStored d x y col zv sv b = writeZs d x y zv sv (colorStored d x y col b) := if_pos hz

theorem colorWord_colorStored (hrange : inRange d.who (colorBpp d.surf.colorFmt) (colorAddr d.surf x y)) :
    colorWord d x y (colorStored d x y col b) = merge (colorWord d x y b) (packColor d.surf.colorFmt col)
      (chanMask d.surf.colorFmt d.pix.cmaskR d.pix.cmaskG d.pix.cmaskB d.pix.cmaskA) :=
  mergeAt_word b rfl (colorBpp_le _) hrange (chanMask_lt ..)

/-- The write-back of the zeta word leaves the colour word, where they share no byte. -/
theorem colorWord_pixelStored
    (happart : zetaUsed d.surf d.pix = true → ∀ a, ¬ (inBytes a (colorAddr d.surf x y) (colorBpp d.surf.colorFmt) ∧
      inBytes a (zetaAddr d.surf x y) (zetaBpp d.surf.zetaFmt))) :
    colorWord d x y (pixelStored d x y col zv sv b) = colorWord d x y (colorStored d x y col b) := by
  unfold pixelStored
  split
  case isTrue hz => exact memReadWord_congr fun a ha => writeZs_other fun hzeta => happart hz a ⟨ha, hzeta⟩
  case isFalse => rfl

theorem pixelStored_other {a : Word} (hcolor : ¬ inBytes a (colorAddr d.surf x y) (colorBpp d.surf.colorFmt))
    (hzeta : ¬ (zetaUsed d.surf d.pix = true ∧ inBytes a (zetaAddr d.surf x y) (zetaBpp d.surf.zetaFmt))) :
    memByte (pixelStored d x y col zv sv b).mem a = memByte b.mem a := by
  have hother : memByte (colorStored d x y col b).mem a = memByte b.mem a := mergeAt_other b fun h => hcolor h.2
  unfold pixelStored
  split
  case isTrue hz => rw [writeZs_other fun h => hzeta ⟨hz, h⟩, hother]
  case isFalse => exact hother

theorem pixelStored_diag (hcolor : inRange d.who (colorBpp d.surf.colorFmt) (colorAddr d.surf x y))
    (hzeta : zetaUsed d.surf d.pix = true → inRange d.who (zetaBpp d.surf.zetaFmt) (zetaAddr d.surf x y)) :
    (pixelStored d x y col zv sv b).diag = b.diag := by
  have hstored : (colorStored d x y col b).diag = b.diag := mergeAt_diag b fun _ => hcolor
  unfold pixelStored
  split
  case isTrue hz => rw [writeZs, memWrite_diag _ _ _ _ _ (hzeta hz), hstored]
  case isFalse => exact hstored

/-- The depth that a pixel that passes writes fits its word. -/
theorem passDepth_lt (z : Word) :
    (d.surf.zetaFmt = 1 → passDepth d.pix (depthOf d.surf.zetaFmt z) (storedZs d x y b).1 < 2 ^ 16) ∧
      (d.surf.zetaFmt = 2 → passDepth d.pix (depthOf d.surf.zetaFmt z) (storedZs d x y b).1 < 2 ^ 24) := by
  have hnew := depthOf_le d.surf.zetaFmt z
  refine ⟨fun hfmt => ?_, fun hfmt => ?_⟩ <;> unfold passDepth <;> split
  · rw [if_pos hfmt] at hnew; omega
  · exact storedZs_z16 hfmt ▸ zetaWord_lt_of_z16 hfmt
  · rw [if_neg (by rw [hfmt]; decide)] at hnew; omega
  · have hword := (zetaWord d x y b).isLt
    rw [(storedZs_z24s8 hfmt).1]
    omega

end stored

/-! ### The packed colour and the channel mask (R211, R582) -/

/-- The low bits of a word under a mask of ones. -/
theorem and_ones_toNat (w : Word) {n : Nat} (hn : n ≤ 32) : (w &&& BitVec.ofNat 32 (2 ^ n - 1)).toNat = w.toNat % 2 ^ n := by
  have hlt : 2 ^ n - 1 < 2 ^ 32 := by
    have hpos := Nat.two_pow_pos n
    have hle := Nat.pow_le_pow_right (n := 2) (by decide) hn
    omega
  rw [BitVec.toNat_and, BitVec.toNat_ofNat, Nat.mod_eq_of_lt hlt, Nat.and_two_pow_sub_one_eq_mod]

/-- A word with its top byte set. -/
theorem or_topByte_toNat (w : Word) : (w ||| 0xFF000000).toNat = 0xFF * 2 ^ 24 + w.toNat % 2 ^ 24 := by
  have hbits : w ||| 0xFF000000 = 0xFF#8 ++ w.extractLsb' 0 24 := by
    have hmask : ∀ i, i < 32 → (0xFF000000 : Word).getLsbD i = decide (24 ≤ i) := by decide
    have hones : ∀ i, i < 8 → (0xFF#8).getLsbD i = true := by decide
    apply BitVec.eq_of_getLsbD_eq
    intro i hi
    rw [BitVec.getLsbD_or, hmask i hi, BitVec.getLsbD_append, BitVec.getLsbD_extractLsb', Nat.zero_add]
    by_cases h : i < 24
    · simp [h]
    · simp [h, hones (i - 24) (by omega)]
      omega
  rw [hbits, toNat_append_eq, extractLsb'_toNat_div, pow_zero, Nat.div_one]
  rfl

/-- The packed colour of a 565 word (R582). -/
theorem packColor_565 (col : Word) : (packColor 3 col).toNat =
    col.toNat / 256 ^ 2 % 256 / 8 * 2 ^ 11 + col.toNat / 256 ^ 1 % 256 / 4 * 2 ^ 5 + col.toNat / 256 ^ 0 % 256 / 8 := by
  rw [packColor, if_pos rfl]
  simp only [toNat_append_eq, extractLsb'_toNat_div, BitVec.toNat_ofNat]
  omega

theorem chanMask_argb8 {fmt : BitVec 4} (h : fmt = 4 ∨ fmt = 5 ∨ fmt = 8) (r g b a : Bool) {n : Nat} (hn : n < 32) :
    (chanMask fmt r g b a).getLsbD n = if n < 8 then b else if n < 16 then g else if n < 24 then r else a := by
  have hmask : ∀ r g b a : Bool, ∀ n < 32,
      (lane a 0xFF000000 ||| lane r 0x00FF0000 ||| lane g 0x0000FF00 ||| lane b 0x000000FF).getLsbD n =
      if n < 8 then b else if n < 16 then g else if n < 24 then r else a := by decide
  rcases h with rfl | rfl | rfl <;> exact hmask r g b a n hn

theorem chanMask_565 (r g b a : Bool) {n : Nat} (hn : n < 32) :
    (chanMask 3 r g b a).getLsbD n = if n < 5 then b else if n < 11 then g else if n < 16 then r else false := by
  revert r g b a n
  decide

theorem chanMask_b8 (r g b a : Bool) {n : Nat} (hn : n < 32) : (chanMask 9 r g b a).getLsbD n = if n < 8 then b else false := by
  revert r g b a n
  decide

end Sys2Proof.Machine

section
open Sys2Proof Sys2Proof.Machine

/-- Settles O31: the pixel goes to write-back, which stores the merged colour word and then, where the zeta buffer is in use, the zeta
word; the two share no byte. -/
theorem passedPixelWritesBack : Obligations.PassedPixelWritesBack := by
  refine ⟨?pixel, fun col => ?pack, fun fmt r g b a n hn => ?mask⟩
  case pixel =>
    intro d x y z src col r b zt zs fmt onColor onZeta depth hin hcolor htests hshade hrange hzeta hr
    obtain ⟨zv, sv, hpixel, hvalues⟩ := pixel_passes hin hcolor htests hshade hr
    have hstart : (pixelStart d x y b).2.mem = b.mem := pixelStart_mem
    have hword : colorWord d x y (pixelStart d x y b).2 = colorWord d x y b := memReadWord_of_mem_eq hstart
    obtain ⟨hdepth16, hdepth24⟩ := passDepth_lt (d := d) (x := x) (y := y) (b := b) z
    refine ⟨_, hpixel, ?color, fun hz hfmt => ?z16, fun hz hfmt => ?z24s8, fun a hc hnz => ?other, fun hbuffer => ?diag⟩
    case color => rw [colorWord_pixelStored fun hz => (hzeta hz).2, colorWord_colorStored hrange, hword]
    case z16 =>
      obtain ⟨rfl, -⟩ := hvalues hz
      rw [pixelStored_used hz]
      exact zetaWord_writeZs_z16 hfmt (hzeta hz).1 (hdepth16 hfmt)
    case z24s8 =>
      obtain ⟨rfl, rfl⟩ := hvalues hz
      rw [pixelStored_used hz]
      exact zetaWord_writeZs_z24s8 hfmt (hzeta hz).1 (hdepth24 hfmt)
    case other => rw [pixelStored_other hc hnz, hstart]
    case diag => rw [pixelStored_diag hrange fun hz => (hzeta hz).1, pixelStart_diag hbuffer fun hz => (hzeta hz).1]
  case pack =>
    refine ⟨packColor_565 col, ?_, and_ones_toNat col (n := 24) (by decide), or_topByte_toNat col, rfl⟩
    dsimp only
    rw [pow_zero, Nat.div_one]
    exact and_ones_toNat col (n := 8) (by decide)
  case mask =>
    exact ⟨fun h => chanMask_argb8 h r g b a hn, fun h => h ▸ chanMask_565 r g b a hn, fun h => h ▸ chanMask_b8 r g b a hn⟩

end
end
